-- ==== Sys2Proof/Word.lean ====
section
/-! DEFINITION. The word types of the CRSF protocol core: bytes, channel values, register-port words and offsets
(00_scope.md R4, R5; 10_state.md R26; 20_memory.md R60, R61). -/

namespace Sys2Proof

/-- A wire byte, or any 8-bit field. -/
abbrev Byte := BitVec 8

/-- A channel value, `CH_BITS` = 11 bits, 0..2047 (R4, R26). -/
abbrev Chan := BitVec 11

/-- A register-port word (R61). -/
abbrev Word32 := BitVec 32

/-- A register-port byte offset, 12 bits (R60). -/
abbrev Offset := BitVec 12

end Sys2Proof
end

