-- ==== Sys2Proof/Syntax.lean ====
section
/-! DEFINITION. The instructions of the block, one constructor per row of spec/opcode_table.json, and the words that
carry them: the four formats of 30_encoding.md R90 and the words the agents deliver (10_state.md R20). -/

namespace Sys2Proof

/-- One operation of the block, one constructor per row of the opcode table. A command (the CMD format) stands for the
WR to the CMD register that carries its word (R90; log entry 2). -/
inductive Instr where
  /-- INIT (R240). -/
  | init
  /-- CRC_CLEAR (R123). -/
  | crcClear
  /-- CRC_FEED of one byte (R124). -/
  | crcFeed (a : Byte)
  /-- CH_UNPACK (R145). -/
  | chUnpack
  /-- CH_PACK (R146). -/
  | chPack
  /-- LATCH_CH (R241). -/
  | latchCh
  /-- LATCH_LINK (R242). -/
  | latchLink
  /-- SEND_BATTERY to a destination (R205). -/
  | sendBattery (dest : Byte)
  /-- SEND_GPS to a destination (R206). -/
  | sendGps (dest : Byte)
  /-- SEND_RAW: destination, frame type, payload length in bytes (R207). -/
  | sendRaw (dest type : Byte) (len : Nat)
  /-- RX_BYTE: one received byte (R161). -/
  | rxByte (d : Byte)
  /-- RX_ERR_TRANSIENT (R173). -/
  | rxErrTransient
  /-- RX_ERR_FATAL (R174). -/
  | rxErrFatal
  /-- SINK_TAKE: how many bytes the transport wrote (R208). -/
  | sinkTake (n : Nat)
  /-- SINK_FAIL (R209). -/
  | sinkFail
  /-- RD of an offset; the 32 DATA bits of the word are carried and ignored (R66, R97). -/
  | rd (off : Offset) (ignored : Word32)
  /-- WR of a value to an offset (R67). -/
  | wr (off : Offset) (data : Word32)
  deriving DecidableEq, Repr

/-- A word in one of the four formats; the interface it arrives on tells the format (R90). -/
inductive CodeWord where
  /-- CMD: a value written to the CMD register (R91). -/
  | cmd (w : BitVec 32)
  /-- RXW: an RX port word (R95). -/
  | rxw (w : BitVec 10)
  /-- SINKW: a TX sink word (R96). -/
  | sinkw (w : BitVec 8)
  /-- BUS: one register-port transaction (R97). -/
  | bus (w : BitVec 45)
  deriving DecidableEq, Repr

/-- What the outside world can deliver to the block between two steps, one constructor per interface (R10, R20). -/
inductive Input where
  /-- The HOST's transaction on the register port. -/
  | host (w : BitVec 45)
  /-- The READER's word on the RX port. -/
  | reader (w : BitVec 10)
  /-- The SINK's word on the TX sink port. -/
  | sink (w : BitVec 8)
  /-- The reset input (R300). -/
  | reset
  deriving DecidableEq, Repr

/-- Why a word is no instruction. -/
inductive DecodeError where
  /-- A CMD word with OP 0x00 or 0x0B to 0xFF (R94). -/
  | unassignedOpcode (w : BitVec 32)
  /-- A CMD word with an assigned OP and a non-zero must-be-zero field (R93). -/
  | nonZeroField (w : BitVec 32)
  /-- An RX port word 0x101-0x1FF, 0x201-0x2FF or 0x300-0x3FF (R95). -/
  | illegalRxWord (w : BitVec 10)
  /-- A sink word 0x81-0xFF, which is not a step (R96, R210). -/
  | notASinkStep (w : BitVec 8)
  deriving DecidableEq, Repr

end Sys2Proof
end

