-- ==== Sys2Proof/WellFormed.lean ====
section
/-! DEFINITION. When an instruction fits its encoding: the two operands that are counts fit their fields
(30_encoding.md R91, R96). Every other operand has its field's width by its type. -/

namespace Sys2Proof

/-- The operands fit the fields that carry them: SEND_RAW's length its 8 bits (R91), SINK_TAKE's count its 7 bits (R96). -/
def Instr.wellFormed (i : Instr) : Bool :=
  match i with
  | .init => true
  | .crcClear => true
  | .crcFeed _ => true
  | .chUnpack => true
  | .chPack => true
  | .latchCh => true
  | .latchLink => true
  | .sendBattery _ => true
  | .sendGps _ => true
  | .sendRaw _ _ len => len < 256
  | .rxByte _ => true
  | .rxErrTransient => true
  | .rxErrFatal => true
  | .sinkTake n => n < 128
  | .sinkFail => true
  | .rd _ _ => true
  | .wr _ _ => true

end Sys2Proof
end

