-- ==== Sys2Proof/Decode.lean ====
section
/-! DEFINITION. The decoder (30_encoding.md R90 to R98), total on every word and rejecting by name, and the encoder
written from the same tables. -/

namespace Sys2Proof

/-- A CMD word from its four bytes, `{C, B, A, OP}` (R91). -/
def cmdWord (op a b c : Byte) : BitVec 32 := c ++ b ++ a ++ op

/-- The OP field, bits [7:0] of a CMD word (R91). -/
def cmdOp (w : BitVec 32) : Byte := w.extractLsb' 0 8
/-- The A field, bits [15:8] of a CMD word (R91). -/
def cmdA (w : BitVec 32) : Byte := w.extractLsb' 8 8
/-- The B field, bits [23:16] of a CMD word (R91). -/
def cmdB (w : BitVec 32) : Byte := w.extractLsb' 16 8
/-- The C field, bits [31:24] of a CMD word (R91). -/
def cmdC (w : BitVec 32) : Byte := w.extractLsb' 24 8

/-- A command with no argument: A, B and C must be zero (R92, R93). -/
def noArgs (w : BitVec 32) (i : Instr) : Except DecodeError Instr :=
  if cmdA w = 0 ∧ cmdB w = 0 ∧ cmdC w = 0 then .ok i else .error (.nonZeroField w)

/-- A command with the one argument A: B and C must be zero (R92, R93). -/
def oneArg (w : BitVec 32) (i : Byte → Instr) : Except DecodeError Instr :=
  if cmdB w = 0 ∧ cmdC w = 0 then .ok (i (cmdA w)) else .error (.nonZeroField w)

/-- The CMD opcode map (R92) with its must-be-zero checks (R93) and unassigned opcodes (R94). -/
def decodeCmd (w : BitVec 32) : Except DecodeError Instr :=
  if cmdOp w = 0x01 then noArgs w .init
  else if cmdOp w = 0x02 then noArgs w .crcClear
  else if cmdOp w = 0x03 then oneArg w .crcFeed
  else if cmdOp w = 0x04 then noArgs w .chUnpack
  else if cmdOp w = 0x05 then noArgs w .chPack
  else if cmdOp w = 0x06 then noArgs w .latchCh
  else if cmdOp w = 0x07 then noArgs w .latchLink
  else if cmdOp w = 0x08 then oneArg w .sendBattery
  else if cmdOp w = 0x09 then oneArg w .sendGps
  else if cmdOp w = 0x0A then .ok (.sendRaw (cmdA w) (cmdB w) (cmdC w).toNat)
  else .error (.unassignedOpcode w)

/-- The RXW format: K in bits [9:8], D in bits [7:0] (R95). -/
def decodeRxw (w : BitVec 10) : Except DecodeError Instr :=
  if w.extractLsb' 8 2 = 0 then .ok (.rxByte (w.extractLsb' 0 8))
  else if w = 0x100 then .ok .rxErrTransient
  else if w = 0x200 then .ok .rxErrFatal
  else .error (.illegalRxWord w)

/-- The SINKW format: F in bit 7, N in bits [6:0] (R96). -/
def decodeSinkw (w : BitVec 8) : Except DecodeError Instr :=
  if w.getLsbD 7 = false then .ok (.sinkTake (w.extractLsb' 0 7).toNat)
  else if w = 0x80 then .ok .sinkFail
  else .error (.notASinkStep w)

/-- The BUS format: WE in bit 44, OFF in bits [43:32], DATA in bits [31:0] (R97). -/
def decodeBus (w : BitVec 45) : Instr :=
  if w.getLsbD 44 then .wr (w.extractLsb' 32 12) (w.extractLsb' 0 32)
  else .rd (w.extractLsb' 32 12) (w.extractLsb' 0 32)

/-- The decoder: a word is read in the format of the interface it arrived on (R90). -/
def decode (c : CodeWord) : Except DecodeError Instr :=
  match c with
  | .cmd w => decodeCmd w
  | .rxw w => decodeRxw w
  | .sinkw w => decodeSinkw w
  | .bus w => .ok (decodeBus w)

/-- The encoder: the word of an instruction, in its format (R92, R95, R96, R97). -/
def encode (i : Instr) : CodeWord :=
  match i with
  | .init => .cmd (cmdWord 0x01 0 0 0)
  | .crcClear => .cmd (cmdWord 0x02 0 0 0)
  | .crcFeed a => .cmd (cmdWord 0x03 a 0 0)
  | .chUnpack => .cmd (cmdWord 0x04 0 0 0)
  | .chPack => .cmd (cmdWord 0x05 0 0 0)
  | .latchCh => .cmd (cmdWord 0x06 0 0 0)
  | .latchLink => .cmd (cmdWord 0x07 0 0 0)
  | .sendBattery dest => .cmd (cmdWord 0x08 dest 0 0)
  | .sendGps dest => .cmd (cmdWord 0x09 dest 0 0)
  | .sendRaw dest type len => .cmd (cmdWord 0x0A dest type (BitVec.ofNat 8 len))
  | .rxByte d => .rxw (0#2 ++ d)
  | .rxErrTransient => .rxw 0x100
  | .rxErrFatal => .rxw 0x200
  | .sinkTake n => .sinkw (0#1 ++ BitVec.ofNat 7 n)
  | .sinkFail => .sinkw 0x80
  | .rd off ignored => .bus (0#1 ++ off ++ ignored)
  | .wr off data => .bus (1#1 ++ off ++ data)

/-- The word an agent's delivery carries in its interface's format; reset carries none (R90). -/
def Input.codeWord (inp : Input) : Option CodeWord :=
  match inp with
  | .host w => some (.bus w)
  | .reader w => some (.rxw w)
  | .sink w => some (.sinkw w)
  | .reset => none

/-- How a word reaches the block: on its own port, a CMD word inside the BUS word of WR to offset 0x000 (R90, R97). -/
def CodeWord.toInput (c : CodeWord) : Input :=
  match c with
  | .cmd w => .host (1#1 ++ 0#12 ++ w)
  | .rxw w => .reader w
  | .sinkw w => .sink w
  | .bus w => .host w

/-- The word of a row of spec/opcode_table.json from its number of bits in whole bytes: 8 for SINKW, 16 for RXW (10 bits),
32 for CMD, 48 for BUS (45 bits). The table gives SEND_RAW 8 bits, all zero above: its word 0x0A is read as that row, not as
SINK_TAKE 10 (DESIGN CHOICE, log entry 13). `none` where the bits do not fit the format. -/
def tableCodeWord (nbits w : Nat) : Option CodeWord :=
  if nbits ≤ 8 then
    if w = 0x0A then some (.cmd 0x0A)
    else if w < 2 ^ 8 then some (.sinkw (BitVec.ofNat 8 w)) else none
  else if nbits ≤ 16 then
    if w < 2 ^ 10 then some (.rxw (BitVec.ofNat 10 w)) else none
  else if nbits ≤ 32 then
    if w < 2 ^ 32 then some (.cmd (BitVec.ofNat 32 w)) else none
  else
    if w < 2 ^ 45 then some (.bus (BitVec.ofNat 45 w)) else none

/-- The instruction the decoder reads from a table row's bits. -/
def decodeTableWord (nbits w : Nat) : Option Instr :=
  match tableCodeWord nbits w with
  | none => none
  | some c =>
    match decode c with
    | .ok i => some i
    | .error _ => none

end Sys2Proof
end

