-- ==== Sys2Proof/Config.lean ====
section
/-! DEFINITION. The block's parameters (00_scope.md R4) and the one open parameter (92_eei_decisions.md D25). -/

namespace Sys2Proof.Config

/-- The first destination byte of the wire format, the flight controller (R4). -/
def syncFc : Byte := 0xC8

/-- The second destination byte of the wire format, the radio (R4). -/
def syncRadio : Byte := 0xEA

/-- The least frame length, type and crc (R4). -/
def lenMin : Nat := 2

/-- The greatest frame length (R4). -/
def lenMax : Nat := 62

/-- The greatest payload a SEND accepts, `LEN_MAX` - 2 (R4, D27). -/
def txPayloadMax : Nat := 60

/-- The type bytes of the frames whose payload size the source fixes (R4, R203). -/
def typeGps : Byte := 0x02
/-- Battery frame type (R4). -/
def typeBattery : Byte := 0x08
/-- Link frame type (R4). -/
def typeLink : Byte := 0x14
/-- Channels frame type (R4). -/
def typeChannels : Byte := 0x16

/-- The CRC polynomial with its x^8 term implicit (R4, R120). -/
def crcPoly : Byte := 0xD5

/-- The CRC initial value (R4, R121). -/
def crcInit : Byte := 0x00

/-- DESIGN CHOICE (log entry 6): which of the two values `GPS_ALT_ENCODER_OFFSET` has is left open by the spec (D25, U5);
no value of this constant can be proved. -/
opaque encoderAddsGpsOffset : Bool

/-- `GPS_ALT_ENCODER_OFFSET`, one of 0 and 1000 (R4, R202). -/
def gpsAltEncoderOffset : BitVec 16 :=
  if encoderAddsGpsOffset then 1000 else 0

end Sys2Proof.Config
end

