-- ==== Sys2Proof/Machine/State.lean ====
section
/-! DEFINITION. The state of the block: every element 10_state.md R23 to R42 names, each stored once, and the model's own
three fields (the words not yet delivered, the word the latest RD returned, the bytes the SINK has taken). -/

namespace Sys2Proof.Machine

/-- Why the machine stops with a fault. The spec's own faults are no stops: they are recorded in the state (R261). -/
inductive Fault where
  /-- Raised by RX_BYTE in READ_BODY when `rx_cnt` is 62 or 63: `rx_buf` has no such element (R32, R164). No run reaches it.
  Safe: the model stops where the spec gives no effect (log entry 10). -/
  | rxBufIndex
  deriving DecidableEq, Repr

/-- Why a word is refused. -/
inductive Refusal where
  /-- Raised by an arm of `exec` that has no meaning yet. Safe. No arm does: every instruction is modelled. -/
  | notModelled (mnemonic : String)
  /-- Raised by SINK_TAKE and SINK_FAIL while `tx_busy = 0` or `faulted = 1`: "not a step" (R210). Safe (log entry 8). -/
  | sinkNoStep
  /-- Raised by SINK_TAKE N with N greater than `tx_len - tx_pos`: "not a step" (R210). Safe (log entry 8). -/
  | sinkOverrun
  /-- Raised for a sink word 0x81-0xFF: "not a step" (R96, R210). Safe (log entry 8). -/
  | sinkIllegalWord
  /-- Raised by RX_BYTE when `rx_state` is VALIDATE at its start, which R28 calls unreachable and U9 of
  93_implementation_defined.md says to refuse. Safe (log entry 9). -/
  | rxStateValidate
  deriving DecidableEq, Repr

/-- The fault codes the block can record (R260); codes 11 to 15 are never raised (log entry 11). -/
inductive FaultCode where
  /-- 0: no fault since reset. -/
  | none
  /-- 1: unassigned OP or non-zero must-be-zero field. -/
  | illegalCmd
  /-- 2: misaligned, unmapped, read of WO, write of RO. -/
  | badAccess
  /-- 3: write with non-zero reserved bits. -/
  | badValue
  /-- 4: SEND argument check fails. -/
  | badArg
  /-- 5: SEND with `en = 0`. -/
  | notEnabled
  /-- 6: INIT with `en = 1`. -/
  | doubleInit
  /-- 7: SEND with `tx_busy = 1`. -/
  | txOverlap
  /-- 8: RX port word with `en = 0`. -/
  | rxNotEnabled
  /-- 9: RX port word with `rx_dead = 1`. -/
  | rxAfterDead
  /-- 10: illegal RX port word. -/
  | rxIllegal
  deriving DecidableEq, Repr

/-- The framer states (R28). -/
inductive RxState where
  /-- 0: discarding bytes until a sync byte. -/
  | seekSync
  /-- 1: the next byte is the length. -/
  | readLen
  /-- 2: accumulating the body. -/
  | readBody
  /-- 3: entered and left inside one RX_BYTE; never found between steps. -/
  | validate
  deriving DecidableEq, Repr

/-- The outcome of the last send (R42); the encoding 3 is never written (log entry 11). -/
inductive TxResult where
  /-- 0: no send completed since the last SEND or reset. -/
  | none
  /-- 1: all bytes taken by the sink. -/
  | ok
  /-- 2: the sink reported a write failure. -/
  | fail
  deriving DecidableEq, Repr

/-- The registers of the map R43, arrays with their index. -/
inductive Reg where
  /-- CMD -/
  | cmd
  /-- STATUS -/
  | status
  /-- FAULT -/
  | fault
  /-- FAULT_INFO -/
  | faultInfo
  /-- RX_DEBUG -/
  | rxDebug
  /-- CRC_ACC -/
  | crcAcc
  /-- TX_INFO -/
  | txInfo
  /-- CH_SHADOW[i] -/
  | chShadow (i : Fin 16)
  /-- LINK_SHADOW[i] -/
  | linkShadow (i : Fin 10)
  /-- CODEC_CH[i] -/
  | codecCh (i : Fin 16)
  /-- CODEC_PK[i] -/
  | codecPk (i : Fin 22)
  /-- BAT_VOLTAGE -/
  | batVoltage
  /-- BAT_CURRENT -/
  | batCurrent
  /-- BAT_CAPACITY -/
  | batCapacity
  /-- BAT_REMAINING -/
  | batRemaining
  /-- GPS_LAT -/
  | gpsLat
  /-- GPS_LON -/
  | gpsLon
  /-- GPS_GSPD -/
  | gpsGspd
  /-- GPS_HEADING -/
  | gpsHeading
  /-- GPS_ALT -/
  | gpsAlt
  /-- GPS_SATS -/
  | gpsSats
  /-- TX_PAYLOAD[i] -/
  | txPayload (i : Fin 60)
  /-- TX_BUF[i] -/
  | txBuf (i : Fin 64)
  deriving DecidableEq, Repr

/-- How a register may be accessed (R43, R64). -/
inductive Access where
  /-- Read-only. -/
  | ro
  /-- Write-only. -/
  | wo
  /-- Read-write. -/
  | rw
  deriving DecidableEq, Repr

/-- The block's state. -/
structure State where
  /-- `en` (R23). -/
  en : Bool
  /-- `faulted` (R24). -/
  faulted : Bool
  /-- `fault_code` (R24, R260). -/
  faultCode : FaultCode
  /-- `fault_info` (R24). -/
  faultInfo : Word32
  /-- `crc_acc` (R25). -/
  crcAcc : Byte
  /-- `cch[0..15]` (R26). -/
  cch : Vector Chan 16
  /-- `cpk[0..21]` (R27). -/
  cpk : Vector Byte 22
  /-- `rx_state` (R28). -/
  rxState : RxState
  /-- `rx_dest` (R29). -/
  rxDest : Byte
  /-- `rx_len` (R30). -/
  rxLen : BitVec 8
  /-- `rx_cnt` (R31). -/
  rxCnt : BitVec 6
  /-- `rx_buf[0..61]` (R32). -/
  rxBuf : Vector Byte 62
  /-- `rx_dead` (R33). -/
  rxDead : Bool
  /-- `st_ch[0..15]` (R34). -/
  stCh : Vector Chan 16
  /-- `st_ch_valid` (R34). -/
  stChValid : Bool
  /-- `st_link[0..9]` (R35). -/
  stLink : Vector Byte 10
  /-- `st_link_valid` (R35). -/
  stLinkValid : Bool
  /-- `sh_ch[0..15]` (R36). -/
  shCh : Vector Chan 16
  /-- `sh_link[0..9]` (R36). -/
  shLink : Vector Byte 10
  /-- `bat_voltage` (R37). -/
  batVoltage : BitVec 16
  /-- `bat_current` (R37). -/
  batCurrent : BitVec 16
  /-- `bat_capacity` (R37). -/
  batCapacity : BitVec 24
  /-- `bat_remaining` (R37). -/
  batRemaining : BitVec 8
  /-- `gps_lat` (R38). -/
  gpsLat : BitVec 32
  /-- `gps_lon` (R38). -/
  gpsLon : BitVec 32
  /-- `gps_gspd` (R38). -/
  gpsGspd : BitVec 16
  /-- `gps_heading` (R38). -/
  gpsHeading : BitVec 16
  /-- `gps_alt` (R38). -/
  gpsAlt : BitVec 16
  /-- `gps_sats` (R38). -/
  gpsSats : BitVec 8
  /-- `txp[0..59]` (R39). -/
  txp : Vector Byte 60
  /-- `tx_buf[0..63]` (R40). -/
  txBuf : Vector Byte 64
  /-- `tx_len` (R41). -/
  txLen : BitVec 7
  /-- `tx_pos` (R41). -/
  txPos : BitVec 7
  /-- `tx_busy` (R42). -/
  txBusy : Bool
  /-- `tx_result` (R42). -/
  txResult : TxResult
  /-- The model's own: the agents' words not yet delivered, in the total order of R73 (log entry 1). -/
  inputs : List Input
  /-- The model's own: the word the latest completed RD returned (R66; log entry 4). -/
  rdData : Option Word32
  /-- The model's own: the bytes the SINK has taken, oldest first (R208; log entry 5). -/
  wire : List Byte
  deriving DecidableEq, Repr

/-- The block right after reset (R300), nothing delivered, read or sent yet. `rxBuf` is DESIGN CHOICE (log entry 3). -/
def State.reset : State where
  en := false
  faulted := false
  faultCode := .none
  faultInfo := 0
  crcAcc := 0
  cch := Vector.replicate 16 0
  cpk := Vector.replicate 22 0
  rxState := .seekSync
  rxDest := 0
  rxLen := 0
  rxCnt := 0
  rxBuf := Vector.replicate 62 0
  rxDead := false
  stCh := Vector.replicate 16 0
  stChValid := false
  stLink := Vector.replicate 10 0
  stLinkValid := false
  shCh := Vector.replicate 16 0
  shLink := Vector.replicate 10 0
  batVoltage := 0
  batCurrent := 0
  batCapacity := 0
  batRemaining := 0
  gpsLat := 0
  gpsLon := 0
  gpsGspd := 0
  gpsHeading := 0
  gpsAlt := 0
  gpsSats := 0
  txp := Vector.replicate 60 0
  txBuf := Vector.replicate 64 0
  txLen := 0
  txPos := 0
  txBusy := false
  txResult := .none
  inputs := []
  rdData := none
  wire := []

/-- What a step of the block answers. -/
abbrev Result := Host.Outcome State Fault Refusal

end Sys2Proof.Machine
end

