-- ==== Sys2Proof/Machine/Ops.lean ====
section
/-! DEFINITION. The operations every meaning shares: entering a fault (60_exceptions.md R261), the frozen block (R263),
leaving a fault by reset (R266, 70_reset_and_hazards.md R300), and the byte-sequence helpers (00_scope.md R6, R9). -/

namespace Sys2Proof.Machine

/-- Fault entry (R261): the three writes of `raise Fault(code, info)`; every other write of the operation is discarded. -/
def faultEntry (code : FaultCode) (info : Word32) (s : State) : State :=
  { s with faulted := true, faultCode := code, faultInfo := info }

/-- `raise Fault(code, info)` in an operation (R8, R261): the step completes with the fault recorded. -/
def raise (code : FaultCode) (info : Word32) (s : State) : Result :=
  .next (faultEntry code info s)

/-- A write or RX word on a frozen block has no effect and raises nothing (R263); otherwise the operation runs. -/
def unlessFrozen (s : State) (k : Result) : Result :=
  if s.faulted then .next s else k

/-- The way out of a fault, and of everything else (R266, R300): every element of the block at its reset value. What lies
outside the block stays: the words still to come, the word already returned, the bytes already sent (log entry 14). -/
def resetBlock (s : State) : State :=
  { State.reset with inputs := s.inputs, rdData := s.rdData, wire := s.wire }

/-- `isSync(b)` (R9). -/
def isSync (b : Byte) : Bool := b == Config.syncFc || b == Config.syncRadio

/-- `be16(v)`, most significant byte first (R9). -/
def be16 (v : BitVec 16) : List Byte := [v.extractLsb' 8 8, v.extractLsb' 0 8]

/-- `be24(v)` (R9). -/
def be24 (v : BitVec 24) : List Byte := [v.extractLsb' 16 8, v.extractLsb' 8 8, v.extractLsb' 0 8]

/-- `be32(v)` (R9). -/
def be32 (v : BitVec 32) : List Byte :=
  [v.extractLsb' 24 8, v.extractLsb' 16 8, v.extractLsb' 8 8, v.extractLsb' 0 8]

/-- A byte sequence in a fixed buffer of `n` bytes, zero beyond its end. -/
def fillBytes (n : Nat) (bytes : List Byte) : Vector Byte n :=
  ⟨((bytes ++ List.replicate n 0).take n).toArray, by simp⟩

/-- The sequence of `n` elements whose element `i` is `f i`. -/
def tabulate {α : Type} (n : Nat) (f : Nat → α) : Vector α n :=
  ⟨((List.range n).map f).toArray, by simp⟩

end Sys2Proof.Machine
end

