-- ==== Sys2Proof/Machine/Crc.lean ====
section
/-! DEFINITION. The CRC-8 engine (40_crc.md): the function the framer, the builder and the standalone engine share
(R120, R121, R125) and the commands CRC_CLEAR and CRC_FEED. -/

namespace Sys2Proof.Machine

/-- One shift of `crc_step` (R120). -/
def crcShift (x : Byte) : Byte :=
  if x.getLsbD 7 then (x <<< 1) ^^^ Config.crcPoly else x <<< 1

/-- `n` shifts. -/
def crcShifts (n : Nat) (x : Byte) : Byte :=
  match n with
  | 0 => x
  | n + 1 => crcShifts n (crcShift x)

/-- `crc_step(c, b)` (R120). -/
def crcStep (c b : Byte) : Byte := crcShifts 8 (c ^^^ b)

/-- `crc8(seq)` (R121). -/
def crc8 (seq : List Byte) : Byte := seq.foldl crcStep Config.crcInit

/-- CRC_CLEAR (R123). -/
def execCrcClear (s : State) : Result :=
  unlessFrozen s (.next { s with crcAcc := Config.crcInit })

/-- CRC_FEED (R124). -/
def execCrcFeed (a : Byte) (s : State) : Result :=
  unlessFrozen s (.next { s with crcAcc := crcStep s.crcAcc a })

end Sys2Proof.Machine
end

