-- ==== Sys2Proof/Machine/Builder.lean ====
section
/-! DEFINITION. The TX frame builder, the payload serialisers and the byte sink (43_tx_builder.md): SEND_BATTERY,
SEND_GPS, SEND_RAW, SINK_TAKE, SINK_FAIL. -/

namespace Sys2Proof.Machine

/-- `build_frame(dest, type, payload)` (R200). -/
def buildFrame (dest type : Byte) (payload : List Byte) : List Byte :=
  [dest, BitVec.ofNat 8 (payload.length + 2), type] ++ payload ++ [crc8 (type :: payload)]

/-- `start_tx(frame)` (R200). -/
def startTx (frame : List Byte) (s : State) : State :=
  { s with txBuf := fillBytes 64 frame, txLen := BitVec.ofNat 7 frame.length, txPos := 0, txBusy := true,
           txResult := .none }

/-- `battery_payload()` (R201). -/
def batteryPayload (s : State) : List Byte :=
  be16 s.batVoltage ++ be16 s.batCurrent ++ be24 s.batCapacity ++ [s.batRemaining]

/-- `gps_payload()` (R202) for a given value of `GPS_ALT_ENCODER_OFFSET`. -/
def gpsPayloadWith (offset : BitVec 16) (s : State) : List Byte :=
  be32 s.gpsLat ++ be32 s.gpsLon ++ be16 s.gpsGspd ++ be16 s.gpsHeading ++ be16 (s.gpsAlt + offset) ++ [s.gpsSats]

/-- `gps_payload()` (R202) with the block's own parameter, which the spec leaves open (D25; log entry 6). -/
def gpsPayload (s : State) : List Byte := gpsPayloadWith Config.gpsAltEncoderOffset s

/-- The payload sizes the source fixes for a type (R203). -/
def fixedSize (type : Byte) : Option Nat :=
  if type = Config.typeChannels then some 22
  else if type = Config.typeLink then some 10
  else if type = Config.typeBattery then some 8
  else if type = Config.typeGps then some 15
  else none

/-- `send_args_ok(dest, type, n)` (R204). -/
def sendArgsOk (dest type : Byte) (n : Nat) : Bool :=
  isSync dest && n ≤ Config.txPayloadMax &&
    match fixedSize type with
    | none => true
    | some size => n == size

/-- What the three SEND commands share: the checks in the order of R264 with the CMD word as info, then the frame built
and its transmission started (R205 to R207). -/
def sendFrame (word : Word32) (dest type : Byte) (n : Nat) (payload : List Byte) (s : State) : Result :=
  unlessFrozen s
    (if s.en = false then raise .notEnabled word s
     else if s.txBusy then raise .txOverlap word s
     else if sendArgsOk dest type n = false then raise .badArg word s
     else .next (startTx (buildFrame dest type payload) s))

/-- SEND_BATTERY (R205). -/
def execSendBattery (dest : Byte) (s : State) : Result :=
  sendFrame (cmdWord 0x08 dest 0 0) dest Config.typeBattery 8 (batteryPayload s) s

/-- SEND_GPS (R206). -/
def execSendGps (dest : Byte) (s : State) : Result :=
  sendFrame (cmdWord 0x09 dest 0 0) dest Config.typeGps 15 (gpsPayload s) s

/-- SEND_RAW (R207): the payload is the first `len` bytes of `txp`. -/
def execSendRaw (dest type : Byte) (len : Nat) (s : State) : Result :=
  sendFrame (cmdWord 0x0A dest type (BitVec.ofNat 8 len)) dest type len (s.txp.toList.take len) s

/-- The SINK has a step only while a frame is in flight on a block that is not faulted (R210); elsewhere its words are no
steps (log entry 8). -/
def whileSending (s : State) (k : Result) : Result :=
  if s.faulted = false ∧ s.txBusy then k else .refused .sinkNoStep

/-- The bytes `tx_buf[tx_pos .. tx_pos+n-1]` that leave on the wire (R208). -/
def offered (n : Nat) (s : State) : List Byte :=
  (s.txBuf.toList.drop s.txPos.toNat).take n

/-- The end of a send when the sink has every byte (R208, R211). -/
def endSend (s : State) : State :=
  if s.txPos = s.txLen then { s with txBusy := false, txResult := .ok } else s

/-- SINK_TAKE (R208); it never takes more than remains (R210). -/
def execSinkTake (n : Nat) (s : State) : Result :=
  whileSending s
    (if s.txPos.toNat + n ≤ s.txLen.toNat then
       .next (endSend { s with txPos := BitVec.ofNat 7 (s.txPos.toNat + n), wire := s.wire ++ offered n s })
     else .refused .sinkOverrun)

/-- SINK_FAIL (R209). -/
def execSinkFail (s : State) : Result :=
  whileSending s (.next { s with txBusy := false, txResult := .fail })

end Sys2Proof.Machine
end

