-- ==== Sys2Proof/Machine/Codec.lean ====
section
/-! DEFINITION. The 11-bit x 16 channel codec (41_channel_codec.md): `unpack22` and `pack16` over the 176-bit stream, and
the commands CH_UNPACK and CH_PACK. -/

namespace Sys2Proof.Machine

/-- The number a sequence of `w`-bit fields spells, field 0 in the low bits: the sum of `x[k] << (w*k)` (R141, R142). -/
def joinFields (w : Nat) (xs : List (BitVec w)) : Nat :=
  match xs with
  | [] => 0
  | x :: rest => x.toNat + 2 ^ w * joinFields w rest

/-- Field `i` of width `w` of a number: `(S >> (w*i)) & (2^w - 1)` (R141, R142). -/
def field (w i n : Nat) : BitVec w := BitVec.ofNat w (n >>> (w * i))

/-- `unpack22(p)` (R141). -/
def unpack22 (p : Vector Byte 22) : Vector Chan 16 :=
  tabulate 16 fun i => field 11 i (joinFields 8 p.toList)

/-- `pack16(ch)` (R142). -/
def pack16 (ch : Vector Chan 16) : Vector Byte 22 :=
  tabulate 22 fun k => field 8 k (joinFields 11 ch.toList)

/-- CH_UNPACK (R145). -/
def execChUnpack (s : State) : Result :=
  unlessFrozen s (.next { s with cch := unpack22 s.cpk })

/-- CH_PACK (R146). -/
def execChPack (s : State) : Result :=
  unlessFrozen s (.next { s with cpk := pack16 s.cch })

end Sys2Proof.Machine
end

