-- ==== Sys2Proof/Machine/Framer.lean ====
section
/-! DEFINITION. The RX framing and resynchronisation state machine, the frame validator and the type dispatcher
(42_rx_framer.md): RX_BYTE, RX_ERR_TRANSIENT, RX_ERR_FATAL. -/

namespace Sys2Proof.Machine

/-- `to_seek()` (R169): `rx_buf` is not cleared. -/
def toSeek (s : State) : State :=
  { s with rxState := .seekSync, rxDest := 0, rxLen := 0, rxCnt := 0 }

/-- `rx_seek(D)` (R162). -/
def rxSeek (d : Byte) (s : State) : State :=
  if isSync d then { s with rxDest := d, rxState := .readLen } else s

/-- `rx_readlen(D)` (R163); a rejected length is consumed. -/
def rxReadLen (d : Byte) (s : State) : State :=
  if Config.lenMin ≤ d.toNat ∧ d.toNat ≤ Config.lenMax then
    { s with rxLen := d, rxCnt := 0, rxState := .readBody }
  else toSeek s

/-- `dispatch_channels(n, payload)` (R166). -/
def dispatchChannels (payload : List Byte) (s : State) : State :=
  if payload.length = 22 then { s with stCh := unpack22 (fillBytes 22 payload), stChValid := true } else s

/-- `dispatch_link(n, payload)` (R167). -/
def dispatchLink (payload : List Byte) (s : State) : State :=
  if payload.length = 10 then { s with stLink := fillBytes 10 payload, stLinkValid := true } else s

/-- The dispatch by type of a CRC-valid frame (R165); every other type is ignored (R168). -/
def dispatch (type : Byte) (payload : List Byte) (s : State) : State :=
  if type = Config.typeChannels then dispatchChannels payload s
  else if type = Config.typeLink then dispatchLink payload s
  else s

/-- `rx_validate()` on the body, the first `rx_len` bytes of `rx_buf` (R165). -/
def validateBody (body : List Byte) (s : State) : State :=
  if crc8 body.dropLast = body.getLastD 0 then dispatch (body.getD 0 0) (body.dropLast.drop 1) s else s

/-- `rx_validate()` (R165). -/
def rxValidate (s : State) : State :=
  validateBody (s.rxBuf.toList.take s.rxLen.toNat) s

/-- The part of `rx_body(D)` that stores the byte (R164). -/
def rxStore (d : Byte) (s : State) : State :=
  { s with rxBuf := s.rxBuf.setIfInBounds s.rxCnt.toNat d, rxCnt := s.rxCnt + 1 }

/-- What `rx_body(D)` does after storing (R164): on completion VALIDATE is entered, run and left in this one step. -/
def rxComplete (s : State) : State :=
  if s.rxCnt.toNat = s.rxLen.toNat then toSeek (rxValidate { s with rxState := .validate }) else s

/-- `rx_body(D)` (R164); an index outside `rx_buf` has no effect in the spec and stops (log entry 10). -/
def rxBody (d : Byte) (s : State) : Result :=
  if s.rxCnt.toNat < 62 then .next (rxComplete (rxStore d s)) else .fault .rxBufIndex

/-- The checks every RX port operation makes first, in the order of R264: enabled (RX_NOT_ENABLED), not dead
(RX_AFTER_DEAD); the info is the RX port word. -/
def rxChecked (word : BitVec 10) (s : State) (k : Result) : Result :=
  unlessFrozen s
    (if s.en = false then raise .rxNotEnabled (word.setWidth 32) s
     else if s.rxDead then raise .rxAfterDead (word.setWidth 32) s
     else k)

/-- RX_BYTE (R161). -/
def execRxByte (d : Byte) (s : State) : Result :=
  rxChecked (0#2 ++ d) s
    (match s.rxState with
     | .seekSync => .next (rxSeek d s)
     | .readLen => .next (rxReadLen d s)
     | .readBody => rxBody d s
     | .validate => .refused .rxStateValidate)

/-- RX_ERR_TRANSIENT (R173): no effect on the framer. -/
def execRxErrTransient (s : State) : Result :=
  rxChecked 0x100 s (.next s)

/-- RX_ERR_FATAL (R174). -/
def execRxErrFatal (s : State) : Result :=
  rxChecked 0x200 s (.next { s with rxDead := true })

/-- An illegal RX port word (R95): RX_ILLEGAL before any other check (R264), nothing on a frozen block (R263). -/
def illegalRxWord (word : BitVec 10) (s : State) : Result :=
  unlessFrozen s (raise .rxIllegal (word.setWidth 32) s)

end Sys2Proof.Machine
end

