-- ==== Sys2Proof/Machine/Flags.lean ====
section
/-! DEFINITION. The status words a host reads: STATUS (10_state.md R44), FAULT (R45), RX_DEBUG (R46), TX_INFO (R48), and
the bit patterns of the named codes they hold (R28, R42, R260). -/

namespace Sys2Proof.Machine

/-- The 2-bit encoding of `rx_state` (R28). -/
def rxStateBits (x : RxState) : BitVec 2 :=
  match x with
  | .seekSync => 0
  | .readLen => 1
  | .readBody => 2
  | .validate => 3

/-- The 2-bit encoding of `tx_result` (R42). -/
def txResultBits (x : TxResult) : BitVec 2 :=
  match x with
  | .none => 0
  | .ok => 1
  | .fail => 2

/-- The 4-bit fault codes (R260). -/
def faultCodeBits (x : FaultCode) : BitVec 4 :=
  match x with
  | .none => 0
  | .illegalCmd => 1
  | .badAccess => 2
  | .badValue => 3
  | .badArg => 4
  | .notEnabled => 5
  | .doubleInit => 6
  | .txOverlap => 7
  | .rxNotEnabled => 8
  | .rxAfterDead => 9
  | .rxIllegal => 10

/-- A flag as one bit. -/
def flagBit (b : Bool) : BitVec 1 := BitVec.ofBool b

/-- STATUS, from bit 9 down to bit 0 (R44). -/
def statusWord (s : State) : Word32 :=
  (flagBit s.faulted ++ flagBit s.en ++ flagBit s.rxDead ++ txResultBits s.txResult ++ flagBit s.txBusy ++
    flagBit s.stLinkValid ++ flagBit s.stChValid ++ rxStateBits s.rxState).setWidth 32

/-- FAULT: `fault_code` in bits [3:0] (R45). -/
def faultWord (s : State) : Word32 := (faultCodeBits s.faultCode).setWidth 32

/-- RX_DEBUG: `rx_cnt` in [21:16], `rx_len` in [15:8], `rx_dest` in [7:0] (R46). -/
def rxDebugWord (s : State) : Word32 := (s.rxCnt ++ s.rxLen ++ s.rxDest).setWidth 32

/-- TX_INFO: `tx_pos` in [14:8], `tx_len` in [6:0] (R48). -/
def txInfoWord (s : State) : Word32 := (s.txPos ++ 0#1 ++ s.txLen).setWidth 32

end Sys2Proof.Machine
end

