-- ==== Sys2Proof/Machine/Operands.lean ====
section
/-! DEFINITION. The operand forms of the block: the registers of the map 10_state.md R43, with their offsets, access
rights and field widths, and the one read and the one write of a register (20_memory.md R66, R67). -/

namespace Sys2Proof.Machine

/-- The element of an array of `n` consecutive words from `base` that an offset names (R43). -/
def arrayIndex (base n off : Nat) : Option (Fin n) :=
  if h : base ≤ off ∧ (off - base) % 4 = 0 ∧ (off - base) / 4 < n then some ⟨(off - base) / 4, h.2.2⟩ else none

/-- The arrays of the map (R43). -/
def arrayAt (off : Nat) : Option Reg :=
  ((arrayIndex 0x040 16 off).map .chShadow).or <|
  ((arrayIndex 0x080 10 off).map .linkShadow).or <|
  ((arrayIndex 0x100 16 off).map .codecCh).or <|
  ((arrayIndex 0x140 22 off).map .codecPk).or <|
  ((arrayIndex 0x200 60 off).map .txPayload).or <|
  (arrayIndex 0x400 64 off).map .txBuf

/-- The register map (R43); `none` for a misaligned or unmapped offset (R62, R63). -/
def regAt (off : Offset) : Option Reg :=
  match off.toNat with
  | 0x000 => some .cmd
  | 0x004 => some .status
  | 0x008 => some .fault
  | 0x00C => some .faultInfo
  | 0x010 => some .rxDebug
  | 0x014 => some .crcAcc
  | 0x018 => some .txInfo
  | 0x1A0 => some .batVoltage
  | 0x1A4 => some .batCurrent
  | 0x1A8 => some .batCapacity
  | 0x1AC => some .batRemaining
  | 0x1B0 => some .gpsLat
  | 0x1B4 => some .gpsLon
  | 0x1B8 => some .gpsGspd
  | 0x1BC => some .gpsHeading
  | 0x1C0 => some .gpsAlt
  | 0x1C4 => some .gpsSats
  | n => arrayAt n

/-- The access column of the map (R43). -/
def regAccess (r : Reg) : Access :=
  match r with
  | .cmd => .wo
  | .status => .ro
  | .fault => .ro
  | .faultInfo => .ro
  | .rxDebug => .ro
  | .crcAcc => .ro
  | .txInfo => .ro
  | .chShadow _ => .ro
  | .linkShadow _ => .ro
  | .codecCh _ => .rw
  | .codecPk _ => .rw
  | .batVoltage => .rw
  | .batCurrent => .rw
  | .batCapacity => .rw
  | .batRemaining => .rw
  | .gpsLat => .rw
  | .gpsLon => .rw
  | .gpsGspd => .rw
  | .gpsHeading => .rw
  | .gpsAlt => .rw
  | .gpsSats => .rw
  | .txPayload _ => .rw
  | .txBuf _ => .ro

/-- The width of the field that a write must fit (R43, R65). -/
def regWidth (r : Reg) : Nat :=
  match r with
  | .cmd => 32
  | .status => 32
  | .fault => 4
  | .faultInfo => 32
  | .rxDebug => 32
  | .crcAcc => 8
  | .txInfo => 32
  | .chShadow _ => 11
  | .linkShadow _ => 8
  | .codecCh _ => 11
  | .codecPk _ => 8
  | .batVoltage => 16
  | .batCurrent => 16
  | .batCapacity => 24
  | .batRemaining => 8
  | .gpsLat => 32
  | .gpsLon => 32
  | .gpsGspd => 16
  | .gpsHeading => 16
  | .gpsAlt => 16
  | .gpsSats => 8
  | .txPayload _ => 8
  | .txBuf _ => 8

/-- `zext_32(field(off))`: the word a register reads as, reserved bits 0 (R43 to R48, R66). CMD is write-only and shows no
element: R64 faults its read before this is asked. -/
def readReg (r : Reg) (s : State) : Word32 :=
  match r with
  | .cmd => 0
  | .status => statusWord s
  | .fault => faultWord s
  | .faultInfo => s.faultInfo
  | .rxDebug => rxDebugWord s
  | .crcAcc => s.crcAcc.setWidth 32
  | .txInfo => txInfoWord s
  | .chShadow i => s.shCh[i].setWidth 32
  | .linkShadow i => s.shLink[i].setWidth 32
  | .codecCh i => s.cch[i].setWidth 32
  | .codecPk i => s.cpk[i].setWidth 32
  | .batVoltage => s.batVoltage.setWidth 32
  | .batCurrent => s.batCurrent.setWidth 32
  | .batCapacity => s.batCapacity.setWidth 32
  | .batRemaining => s.batRemaining.setWidth 32
  | .gpsLat => s.gpsLat
  | .gpsLon => s.gpsLon
  | .gpsGspd => s.gpsGspd.setWidth 32
  | .gpsHeading => s.gpsHeading.setWidth 32
  | .gpsAlt => s.gpsAlt.setWidth 32
  | .gpsSats => s.gpsSats.setWidth 32
  | .txPayload i => s.txp[i].setWidth 32
  | .txBuf i => s.txBuf[i].setWidth 32

/-- `element(off) <- v[w-1:0]` of a RW register (R67); no other register has an element a write reaches (R64). -/
def writeReg (r : Reg) (v : Word32) (s : State) : State :=
  match r with
  | .codecCh i => { s with cch := s.cch.set i.val (v.setWidth 11) }
  | .codecPk i => { s with cpk := s.cpk.set i.val (v.setWidth 8) }
  | .batVoltage => { s with batVoltage := v.setWidth 16 }
  | .batCurrent => { s with batCurrent := v.setWidth 16 }
  | .batCapacity => { s with batCapacity := v.setWidth 24 }
  | .batRemaining => { s with batRemaining := v.setWidth 8 }
  | .gpsLat => { s with gpsLat := v }
  | .gpsLon => { s with gpsLon := v }
  | .gpsGspd => { s with gpsGspd := v.setWidth 16 }
  | .gpsHeading => { s with gpsHeading := v.setWidth 16 }
  | .gpsAlt => { s with gpsAlt := v.setWidth 16 }
  | .gpsSats => { s with gpsSats := v.setWidth 8 }
  | .txPayload i => { s with txp := s.txp.set i.val (v.setWidth 8) }
  | .cmd => s
  | .status => s
  | .fault => s
  | .faultInfo => s
  | .rxDebug => s
  | .crcAcc => s
  | .txInfo => s
  | .chShadow _ => s
  | .linkShadow _ => s
  | .txBuf _ => s

/-- No reserved bit of a write is set: `v[31:w] = 0` (R65). -/
def fitsReg (r : Reg) (v : Word32) : Bool := v.toNat < 2 ^ regWidth r

/-- `zext_32({we, off})`, the info of an access fault (R62 to R65, R260). -/
def accessInfo (we : Bool) (off : Offset) : Word32 := (BitVec.ofBool we ++ off).setWidth 32

end Sys2Proof.Machine
end

