-- ==== Sys2Proof/Machine/Store.lean ====
section
/-! DEFINITION. The snapshot store's read path and the enable (44_store_api.md): INIT, LATCH_CH, LATCH_LINK. The write
path is the dispatcher of Machine/Framer.lean. -/

namespace Sys2Proof.Machine

/-- INIT (R240); a second INIT is the fault DOUBLE_INIT with the CMD word as its info. -/
def execInit (s : State) : Result :=
  unlessFrozen s (if s.en then raise .doubleInit 0x00000001 s else .next { s with en := true })

/-- LATCH_CH (R241). -/
def execLatchCh (s : State) : Result :=
  unlessFrozen s (.next { s with shCh := s.stCh })

/-- LATCH_LINK (R242). -/
def execLatchLink (s : State) : Result :=
  unlessFrozen s (.next { s with shLink := s.stLink })

end Sys2Proof.Machine
end

