-- ==== Sys2Proof/Machine/Port.lean ====
section
/-! DEFINITION. The host register port (20_memory.md): RD, WR, and the command a write to CMD executes
(30_encoding.md R92). -/

namespace Sys2Proof.Machine

/-- The command a CMD word decodes to, performed (R92). Only commands are decoded from a CMD word; the other rows have no
CMD encoding and stand with the unassigned ones. -/
def runCommand (w : Word32) (i : Instr) (s : State) : Result :=
  match i with
  | .init => execInit s
  | .crcClear => execCrcClear s
  | .crcFeed a => execCrcFeed a s
  | .chUnpack => execChUnpack s
  | .chPack => execChPack s
  | .latchCh => execLatchCh s
  | .latchLink => execLatchLink s
  | .sendBattery dest => execSendBattery dest s
  | .sendGps dest => execSendGps dest s
  | .sendRaw dest type len => execSendRaw dest type len s
  | .rxByte _ => raise .illegalCmd w s
  | .rxErrTransient => raise .illegalCmd w s
  | .rxErrFatal => raise .illegalCmd w s
  | .sinkTake _ => raise .illegalCmd w s
  | .sinkFail => raise .illegalCmd w s
  | .rd _ _ => raise .illegalCmd w s
  | .wr _ _ => raise .illegalCmd w s

/-- `execute_command(w)` (R92): ILLEGAL_CMD before every other check of the command (R93, R94, R264). -/
def executeCommand (w : Word32) (s : State) : Result :=
  match decodeCmd w with
  | .ok i => runCommand w i s
  | .error _ => raise .illegalCmd w s

/-- RD returns a word to the host and changes nothing of the block (R66, R68). -/
def returnWord (v : Word32) (s : State) : Result := .next { s with rdData := some v }

/-- A RD that cannot be served: BAD_ACCESS (R62 to R64), or 0 with no effect on a frozen block (R263). -/
def readFault (off : Offset) (s : State) : Result :=
  if s.faulted then returnWord 0 s else raise .badAccess (accessInfo false off) s

/-- RD (R66). -/
def execRd (off : Offset) (_ignored : Word32) (s : State) : Result :=
  match regAt off with
  | none => readFault off s
  | some r =>
    match regAccess r with
    | .wo => readFault off s
    | .ro => returnWord (readReg r s) s
    | .rw => returnWord (readReg r s) s

/-- WR (R67), its checks in the order of R264. -/
def execWr (off : Offset) (data : Word32) (s : State) : Result :=
  unlessFrozen s
    (match regAt off with
     | none => raise .badAccess (accessInfo true off) s
     | some r =>
       match regAccess r with
       | .ro => raise .badAccess (accessInfo true off) s
       | .wo => executeCommand data s
       | .rw => if fitsReg r data then .next (writeReg r data s) else raise .badValue (accessInfo true off) s)

end Sys2Proof.Machine
end

