-- ==== Sys2Proof/Machine/Dispatch.lean ====
section
/-! DEFINITION. The meaning of every instruction, one arm per constructor. -/

namespace Sys2Proof.Machine

def exec (i : Instr) (s : State) : Host.Outcome State Fault Refusal :=
  match i with
  | .init => Sys2Proof.Machine.execInit s
  | .crcClear => Sys2Proof.Machine.execCrcClear s
  | .crcFeed a => Sys2Proof.Machine.execCrcFeed a s
  | .chUnpack => Sys2Proof.Machine.execChUnpack s
  | .chPack => Sys2Proof.Machine.execChPack s
  | .latchCh => Sys2Proof.Machine.execLatchCh s
  | .latchLink => Sys2Proof.Machine.execLatchLink s
  | .sendBattery dest => Sys2Proof.Machine.execSendBattery dest s
  | .sendGps dest => Sys2Proof.Machine.execSendGps dest s
  | .sendRaw dest type len => Sys2Proof.Machine.execSendRaw dest type len s
  | .rxByte d => Sys2Proof.Machine.execRxByte d s
  | .rxErrTransient => Sys2Proof.Machine.execRxErrTransient s
  | .rxErrFatal => Sys2Proof.Machine.execRxErrFatal s
  | .sinkTake n => Sys2Proof.Machine.execSinkTake n s
  | .sinkFail => Sys2Proof.Machine.execSinkFail s
  | .rd off ignored => Sys2Proof.Machine.execRd off ignored s
  | .wr off data => Sys2Proof.Machine.execWr off data s

end Sys2Proof.Machine
end

