-- ==== Sys2Proof/Machine/Fetch.lean ====
section
/-! DEFINITION. How the next word reaches the block: the delivery of the agents' words in their total order
(20_memory.md R73), and what a word that decodes to no instruction does (30_encoding.md R93 to R96). -/

namespace Sys2Proof.Machine

/-- The next agent's word and the state with it consumed; `none` when no agent has one (log entry 1). -/
def takeInput (s : State) : Option (Input × State) :=
  match s.inputs with
  | [] => none
  | inp :: rest => some (inp, { s with inputs := rest })

/-- A state with a word delivered next, before every word already waiting. -/
def deliver (inp : Input) (s : State) : State := { s with inputs := inp :: s.inputs }

/-- The block with no word delivered stays as it is (R22, R172, R310; log entry 12). -/
def idle (s : State) : Result := .next s

/-- What a word that is no instruction does: an illegal command faults ILLEGAL_CMD (R93, R94), an illegal RX word faults
RX_ILLEGAL (R95), a sink word 0x81-0xFF is not a step (R210; log entry 8). -/
def rejectWord (e : DecodeError) (s : State) : Result :=
  match e with
  | .unassignedOpcode w => unlessFrozen s (raise .illegalCmd w s)
  | .nonZeroField w => unlessFrozen s (raise .illegalCmd w s)
  | .illegalRxWord w => illegalRxWord w s
  | .notASinkStep _ => .refused .sinkIllegalWord

/-- The block with a table row's word delivered next, on the interface of its format. -/
def deliverTableWord (nbits w : Nat) (s : State) : State :=
  match tableCodeWord nbits w with
  | none => s
  | some c => deliver c.toInput s

end Sys2Proof.Machine
end

