-- ==== Sys2Proof/Machine/Step.lean ====
section
/-! DEFINITION. One step of the block: the next agent's word, delivered, decoded and performed, atomically
(20_memory.md R72, R73). -/

namespace Sys2Proof.Machine

/-- One step: the reset input resets the block (R300); any other word is decoded in its interface's format (R90) and
performed; with no word delivered the block idles. -/
def step (s : State) : Host.Outcome State Fault Refusal :=
  match takeInput s with
  | none => idle s
  | some (inp, s') =>
    match inp.codeWord with
    | none => .next (resetBlock s')
    | some c =>
      match decode c with
      | .ok i => exec i s'
      | .error e => rejectWord e s'

/-- `s` with a table row's word delivered next (log entries 1 and 13). -/
def State.withFetchWord (s : State) (nbits w : Nat) : State := deliverTableWord nbits w s

end Sys2Proof.Machine
end

