-- ==== Sys2Proof/Safety.lean ====
section
/-! DEFINITION. What counts as a safe run, in the terms the statements use: a live block, the invariant of every reachable
state, the soundness of the built frame and of the bytes sent, and runs over delivered words. -/

namespace Sys2Proof.Safety

open Sys2Proof.Machine

/-- The block is not frozen by a fault (R263). -/
abbrev live (s : State) : Prop := s.faulted = false

/-- "A model should treat `faulted = 1` as a failed run" (R263). -/
def failed (s : State) : Bool := s.faulted

/-- The RX port is usable: live, started by INIT, no fatal read error yet (R161). -/
abbrev receiving (s : State) : Prop := s.faulted = false ∧ s.en = true ∧ s.rxDead = false

/-- A SEND may start: live, started by INIT, no send in flight (R205). -/
abbrev maySend (s : State) : Prop := s.faulted = false ∧ s.en = true ∧ s.txBusy = false

/-- The framer's elements agree with its state (R28 to R31, R169). -/
abbrev framerOk (s : State) : Prop :=
  s.rxState ≠ .validate ∧
  (s.rxState = .seekSync → s.rxDest = 0 ∧ s.rxLen = 0 ∧ s.rxCnt = 0) ∧
  (s.rxState = .readLen → isSync s.rxDest = true ∧ s.rxLen = 0 ∧ s.rxCnt = 0) ∧
  (s.rxState = .readBody → isSync s.rxDest = true ∧ 2 ≤ s.rxLen.toNat ∧ s.rxLen.toNat ≤ 62 ∧
    s.rxCnt.toNat < s.rxLen.toNat)

/-- The transmitter's elements agree (R40 to R42, R211): the length is 0 or a frame's, the position within it, the tail of
the buffer zero, a send in flight has bytes left and no result, OK means every byte was taken. -/
abbrev txOk (s : State) : Prop :=
  (s.txLen = 0 ∨ (4 ≤ s.txLen.toNat ∧ s.txLen.toNat ≤ 64)) ∧
  s.txPos.toNat ≤ s.txLen.toNat ∧
  (∀ i : Fin 64, s.txLen.toNat ≤ i.val → s.txBuf[i] = 0) ∧
  (s.txBusy = true → s.txPos.toNat < s.txLen.toNat ∧ s.txResult = .none) ∧
  (s.txBusy = false → s.txResult = .none → s.txLen = 0) ∧
  (s.txResult = .ok → s.txPos = s.txLen) ∧
  (s.txResult = .fail → s.txPos.toNat < s.txLen.toNat)

/-- The fault record is empty exactly until a fault (R24, R45). -/
abbrev faultOk (s : State) : Prop :=
  (s.faulted = false → s.faultCode = .none ∧ s.faultInfo = 0) ∧
  (s.faulted = true → s.faultCode ≠ .none)

/-- Before INIT nothing was received or sent (R23, R302, R303). -/
abbrev enableOk (s : State) : Prop :=
  s.en = false → s.rxState = .seekSync ∧ s.rxDead = false ∧ s.stChValid = false ∧ s.stLinkValid = false ∧ s.txLen = 0

/-- Before a valid frame of a kind its snapshot is zero (R243). -/
abbrev storeOk (s : State) : Prop :=
  (s.stChValid = false → s.stCh = Vector.replicate 16 0) ∧
  (s.stLinkValid = false → s.stLink = Vector.replicate 10 0)

/-- The invariant of the block: what holds of every state a run from reset reaches. -/
abbrev Coherent (s : State) : Prop := framerOk s ∧ txOk s ∧ faultOk s ∧ enableOk s ∧ storeOk s

/-- The first `tx_len` bytes of `tx_buf`: the frame being or last transmitted (R40). -/
def builtFrame (s : State) : List Byte := s.txBuf.toList.take s.txLen.toNat

/-- A byte sequence is a frame of the wire format: a sync destination, a length byte counting what follows it, and a last
byte that is the CRC of type and payload (R200, R203). -/
abbrev soundFrame (frame : List Byte) : Prop :=
  isSync (frame.getD 0 0) = true ∧
  (frame.getD 1 0).toNat + 2 = frame.length ∧
  frame.getLastD 0 = crc8 (frame.drop 2).dropLast

/-- No malformed frame is ever built: `tx_buf` holds no frame yet or a sound one, of at most 64 bytes (R200, R204). -/
abbrev builtFrameOk (s : State) : Prop :=
  s.txLen = 0 ∨ (s.txLen.toNat ≤ 64 ∧ soundFrame (builtFrame s))

/-- What the SINK took of the current frame are its first `tx_pos` bytes, in order, once, at the end of the wire (R211). -/
abbrev wireOk (s : State) : Prop := s.txBuf.toList.take s.txPos.toNat <:+ s.wire

/-- A received byte as the READER's word (R95). -/
def readerByte (b : Byte) : Input := .reader (0#2 ++ b)

/-- A CMD word as the HOST's transaction WR CMD (R90, R97). -/
def hostCommand (w : Word32) : Input := .host (1#1 ++ 0#12 ++ w)

/-- The state with words delivered next, before every word already waiting. -/
def withInputs (inputs : List Input) (s : State) : State := { s with inputs := inputs ++ s.inputs }

/-- The machine's run over words delivered next: one step each. -/
def runInputs (inputs : List Input) (s : State) : Result :=
  Host.Core.run Sys2Proof.core inputs.length (withInputs inputs s)

/-- The machine's run over received bytes, one RX port word each (R171). -/
def receive (bytes : List Byte) (s : State) : Result := runInputs (bytes.map readerByte) s

end Sys2Proof.Safety
end

