-- ==== Sys2Proof/Certificates/Slice0/Obligations.lean ====
section
/-! DEFINITION. The statements for the provers, each from the rules of spec/ that its docstring names. -/

namespace Sys2Proof.Claims

open Sys2Proof.Machine Sys2Proof.Safety

/-- The three writes of a fault (R261), and nothing else. -/
def faulting (code : FaultCode) (info : Word32) (s : State) : State :=
  { s with faulted := true, faultCode := code, faultInfo := info }

/-- A command completes with state `t`, as an instruction and as the write of its word to CMD (R92). -/
def commandGives (i : Instr) (w : Word32) (s t : State) : Prop :=
  exec i s = .next t ∧ exec (.wr 0x000 w) s = .next t

/-- Writing `w` to CMD faults ILLEGAL_CMD with the word as its info and no other effect (R93, R94). -/
def illegalCommand (w : Word32) (s : State) : Prop :=
  exec (.wr 0x000 w) s = .next (faulting .illegalCmd w s)

/-- A SEND command completes by starting the transmission of `frame` (R200): the frame in `tx_buf` with zeros after it,
`tx_len`, `tx_pos`, `tx_busy`, `tx_result`, and nothing else. -/
def sendGives (i : Instr) (w : Word32) (s : State) (frame : List Byte) : Prop :=
  ∃ t, commandGives i w s t ∧ t.txBuf.toList = frame ++ List.replicate (64 - frame.length) 0 ∧
    t = { s with txBuf := t.txBuf, txLen := BitVec.ofNat 7 frame.length, txPos := 0, txBusy := true,
                 txResult := .none }

/-- The fault codes as R260 numbers them. -/
def codeNumber (c : FaultCode) : Nat :=
  match c with
  | .none => 0
  | .illegalCmd => 1
  | .badAccess => 2
  | .badValue => 3
  | .badArg => 4
  | .notEnabled => 5
  | .doubleInit => 6
  | .txOverlap => 7
  | .rxNotEnabled => 8
  | .rxAfterDead => 9
  | .rxIllegal => 10

/-- The offsets a host may read: the RO and RW rows of the map R43. -/
abbrev readable (off : Offset) : Prop :=
  off.toNat % 4 = 0 ∧
  ((0x004 ≤ off.toNat ∧ off.toNat ≤ 0x018) ∨ (0x040 ≤ off.toNat ∧ off.toNat ≤ 0x07C) ∨
   (0x080 ≤ off.toNat ∧ off.toNat ≤ 0x0A4) ∨ (0x100 ≤ off.toNat ∧ off.toNat ≤ 0x13C) ∨
   (0x140 ≤ off.toNat ∧ off.toNat ≤ 0x194) ∨ (0x1A0 ≤ off.toNat ∧ off.toNat ≤ 0x1C4) ∨
   (0x200 ≤ off.toNat ∧ off.toNat ≤ 0x2EC) ∨ (0x400 ≤ off.toNat ∧ off.toNat ≤ 0x4FC))

/-- The offsets of the RW rows of the map R43. -/
abbrev dataOffset (off : Offset) : Prop :=
  off.toNat % 4 = 0 ∧
  ((0x100 ≤ off.toNat ∧ off.toNat ≤ 0x13C) ∨ (0x140 ≤ off.toNat ∧ off.toNat ≤ 0x194) ∨
   (0x1A0 ≤ off.toNat ∧ off.toNat ≤ 0x1C4) ∨ (0x200 ≤ off.toNat ∧ off.toNat ≤ 0x2EC))

/-- The field width of a RW offset, from the Field column of the map R43. -/
def fieldWidth (off : Offset) : Nat :=
  if off.toNat ≤ 0x13C then 11
  else if off.toNat ≤ 0x194 then 8
  else if off.toNat ≤ 0x1A4 then 16
  else if off.toNat = 0x1A8 then 24
  else if off.toNat = 0x1AC then 8
  else if off.toNat ≤ 0x1B4 then 32
  else if off.toNat ≤ 0x1C0 then 16
  else 8

/-- RD of an offset returns a number, zero-extended, and changes nothing else (R66). -/
def rdGives (s : State) (ignored : Word32) (off n : Nat) : Prop :=
  exec (.rd (BitVec.ofNat 12 off) ignored) s = .next { s with rdData := some (BitVec.ofNat 32 n) }

/-- WR of a value that fits `w` bits to an offset gives state `t` (R65, R67). -/
def wrGives (s : State) (v : Word32) (off w : Nat) (t : State) : Prop :=
  v.toNat < 2 ^ w → exec (.wr (BitVec.ofNat 12 off) v) s = .next t

/-- The operation an instruction performs: for a write to CMD that decodes, its command (R92). -/
def performed (i : Instr) : Instr :=
  match i with
  | .wr off w =>
    if off = 0x000 then
      match decode (.cmd w) with
      | .ok c => c
      | .error _ => i
    else i
  | _ => i

/-- A SEND command. -/
def isSend (i : Instr) : Prop :=
  (∃ d, i = .sendBattery d) ∨ (∃ d, i = .sendGps d) ∨ (∃ d ty n, i = .sendRaw d ty n)

/-- A host word that feeds one byte to the standalone CRC engine (R124). -/
def feedWord (b : Byte) : Input := hostCommand (0#16 ++ b ++ 0x03#8)

/-- The frame of a type and payload, written out from R200. -/
def wireFrame (dest type : Byte) (payload : List Byte) : List Byte :=
  [dest, BitVec.ofNat 8 (payload.length + 2), type] ++ payload ++ [crc8 (type :: payload)]

/-- What a valid frame does to the state, `rx_buf` apart (R165 to R169): the framer back at its start, and the store's
snapshot of the frame's kind replaced if the payload has that kind's size. -/
def afterFrame (type : Byte) (payload : List Byte) (s t : State) : Prop :=
  t.rxState = .seekSync ∧ t.rxDest = 0 ∧ t.rxLen = 0 ∧ t.rxCnt = 0 ∧
  (if type = 0x16 ∧ payload.length = 22 then
     t.stChValid = true ∧ ∀ p : Vector Byte 22, p.toList = payload → t.stCh = unpack22 p
   else t.stChValid = s.stChValid ∧ t.stCh = s.stCh) ∧
  (if type = 0x14 ∧ payload.length = 10 then t.stLinkValid = true ∧ t.stLink.toList = payload
   else t.stLinkValid = s.stLinkValid ∧ t.stLink = s.stLink) ∧
  t = { s with rxState := t.rxState, rxDest := t.rxDest, rxLen := t.rxLen, rxCnt := t.rxCnt, rxBuf := t.rxBuf,
               stCh := t.stCh, stChValid := t.stChValid, stLink := t.stLink, stLinkValid := t.stLinkValid }

/-- Two outcomes that differ at most in the stale part of `rx_buf`, the elements at and beyond `rx_cnt` (R32). -/
def sameButStale (a b : Result) : Prop :=
  (∃ s t, a = .next s ∧ b = .next t ∧ t = { s with rxBuf := t.rxBuf } ∧
    ∀ k : Fin 62, k.val < s.rxCnt.toNat → t.rxBuf[k] = s.rxBuf[k]) ∨
  (∃ r, a = .fault r ∧ b = .fault r) ∨ (∃ r, a = .refused r ∧ b = .refused r)

end Sys2Proof.Claims

open Sys2Proof Sys2Proof.Machine Sys2Proof.Safety Sys2Proof.Claims

/-! ## Encoding -/

/-- Decoding the word of a well-formed instruction gives it back, for all 17 rows (30_encoding.md §1). -/
def Obligations.DecodeOfEncodeIsTheInstruction : Prop :=
  ∀ i : Instr, i.wellFormed = true → decode (encode i) = .ok i

/-- Every word that decodes is the word of the well-formed instruction it decodes to (30_encoding.md §1). -/
def Obligations.DecodedWordIsItsEncoding : Prop :=
  ∀ (c : CodeWord) (i : Instr), decode c = .ok i → i.wellFormed = true ∧ encode i = c

/-- A few words of 95_test_vectors.md decode to the instructions they stand for. -/
def Obligations.SampleWordsDecode : Prop :=
  decode (.cmd 0x00000001) = .ok .init ∧ decode (.cmd 0x00001603) = .ok (.crcFeed 0x16) ∧
  decode (.cmd 0x0000C808) = .ok (.sendBattery 0xC8) ∧ decode (.cmd 0x1616EA0A) = .ok (.sendRaw 0xEA 0x16 22) ∧
  decode (.rxw 0x0C8) = .ok (.rxByte 0xC8) ∧ decode (.rxw 0x200) = .ok .rxErrFatal ∧
  decode (.sinkw 0x0C) = .ok (.sinkTake 12) ∧ decode (.sinkw 0x80) = .ok .sinkFail ∧
  decode (.bus 0x000400000000) = .ok (.rd 0x004 0) ∧ decode (.bus 0x11A00000007E) = .ok (.wr 0x1A0 0x7E)

/-- R94: a CMD word with an unassigned opcode faults ILLEGAL_CMD with no other effect. -/
def Obligations.UnassignedOpcodesFault : Prop :=
  ∀ (w : Word32) (s : State), live s → ((w.extractLsb' 0 8).toNat = 0x00 ∨ 0x0B ≤ (w.extractLsb' 0 8).toNat) →
    illegalCommand w s

/-- R93: a non-zero must-be-zero field faults ILLEGAL_CMD before any other check; argument fields accept every value. -/
def Obligations.NonZeroFieldsFault : Prop :=
  (∀ (w : Word32) (s : State), live s →
    (((w.extractLsb' 0 8).toNat ∈ [0x01, 0x02, 0x04, 0x05, 0x06, 0x07] ∧ w.extractLsb' 8 24 ≠ 0) ∨
     ((w.extractLsb' 0 8).toNat ∈ [0x03, 0x08, 0x09] ∧ w.extractLsb' 16 16 ≠ 0)) → illegalCommand w s) ∧
  (∀ a b c : Byte, decode (.cmd (0#16 ++ a ++ 0x03#8)) = .ok (.crcFeed a) ∧
    decode (.cmd (0#16 ++ a ++ 0x08#8)) = .ok (.sendBattery a) ∧
    decode (.cmd (0#16 ++ a ++ 0x09#8)) = .ok (.sendGps a) ∧
    decode (.cmd (c ++ b ++ a ++ 0x0A#8)) = .ok (.sendRaw a b c.toNat))

/-- R95, its illegal words: they fault RX_ILLEGAL with the word as info, before the enable and dead checks; the step consumes
the word (the model's choice, log entry 1). -/
def Obligations.IllegalRxWordsFault : Prop :=
  ∀ (w : BitVec 10) (s : State) (rest : List Input), live s →
    (w.toNat ∈ Set.Icc 0x101 0x1FF ∨ w.toNat ∈ Set.Icc 0x201 0x2FF ∨ w.toNat ∈ Set.Icc 0x300 0x3FF) →
    s.inputs = .reader w :: rest →
    step s = .next (faulting .rxIllegal (w.setWidth 32) { s with inputs := rest })

/-! ## Steps and reset -/

/-- A step performs the instruction the next delivered word decodes to, on the state with that word consumed (how words wait
is the model's choice, log entry 1). -/
def Obligations.StepRunsTheDecodedInstruction : Prop :=
  ∀ (s : State) (inp : Input) (rest : List Input) (c : CodeWord) (i : Instr),
    s.inputs = inp :: rest → inp.codeWord = some c → decode c = .ok i →
    step s = exec i { s with inputs := rest }

/-- R92: a write to CMD performs the command its word decodes to. -/
def Obligations.CmdWriteRunsItsCommand : Prop :=
  ∀ (w : Word32) (i : Instr) (s : State), decode (.cmd w) = .ok i → exec (.wr 0x000 w) s = exec i s

/-- With no word delivered the block stays as it is (the model's choice, log entry 12). -/
def Obligations.NothingDeliveredNothingChanges : Prop :=
  ∀ s : State, s.inputs = [] → step s = .next s

/-- R300: a reset step, from any state, sets every element to its reset value, `rx_buf` apart, which R32 leaves unspecified.
What is outside the block stays (the model's choice, log entry 14). -/
def Obligations.ResetRestoresEveryElement : Prop :=
  ∀ (s : State) (rest : List Input), s.inputs = .reset :: rest → ∃ t, step s = .next t ∧
    t.en = false ∧ t.faulted = false ∧ codeNumber t.faultCode = 0 ∧ t.faultInfo = 0 ∧ t.crcAcc = 0 ∧
    (∀ k : Fin 16, t.cch[k] = 0) ∧ (∀ k : Fin 22, t.cpk[k] = 0) ∧
    t.rxState = .seekSync ∧ t.rxDest = 0 ∧ t.rxLen = 0 ∧ t.rxCnt = 0 ∧ t.rxDead = false ∧
    (∀ k : Fin 16, t.stCh[k] = 0 ∧ t.shCh[k] = 0) ∧ (∀ k : Fin 10, t.stLink[k] = 0 ∧ t.shLink[k] = 0) ∧
    t.stChValid = false ∧ t.stLinkValid = false ∧
    t.batVoltage = 0 ∧ t.batCurrent = 0 ∧ t.batCapacity = 0 ∧ t.batRemaining = 0 ∧
    t.gpsLat = 0 ∧ t.gpsLon = 0 ∧ t.gpsGspd = 0 ∧ t.gpsHeading = 0 ∧ t.gpsAlt = 0 ∧ t.gpsSats = 0 ∧
    (∀ k : Fin 60, t.txp[k] = 0) ∧ (∀ k : Fin 64, t.txBuf[k] = 0) ∧
    t.txLen = 0 ∧ t.txPos = 0 ∧ t.txBusy = false ∧ t.txResult = .none ∧
    t.inputs = rest ∧ t.rdData = s.rdData ∧ t.wire = s.wire

/-- R300, its consequence: after a reset step, from any state, every mapped readable register reads 0x00000000. The returned
word is `rdData` (the model's choice, log entry 4). -/
def Obligations.RegistersReadZeroAfterReset : Prop :=
  ∀ (s t : State) (rest : List Input) (off : Offset) (ignored : Word32),
    s.inputs = .reset :: rest → step s = .next t → readable off →
    exec (.rd off ignored) t = .next { t with rdData := some 0x00000000 }

/-! ## Invariants -/

/-- The state after reset meets the invariant. -/
def Obligations.ResetMeetsTheInvariant : Prop := Coherent State.reset ∧ builtFrameOk State.reset ∧ wireOk State.reset

/-- Every step keeps the invariant: VALIDATE is never at rest (R28), the framer's counters agree with its state (R29 to
R31), `tx_pos` stays within `tx_len` (R41), `tx_result` says how the last send ended (R42, R211), the fault record is
empty until a fault (R45), nothing is received or sent before INIT (R23), snapshots are zero until valid (R243). -/
def Obligations.EveryStepKeepsTheInvariant : Prop :=
  ∀ s t : State, Coherent s → step s = .next t → Coherent t

/-- Every step keeps the frame in `tx_buf` sound: destination a sync byte, length byte and CRC right (R200, R204). -/
def Obligations.EveryStepKeepsTheBuiltFrameSound : Prop :=
  ∀ s t : State, builtFrameOk s → step s = .next t → builtFrameOk t

/-- Every step keeps the wire right: what the SINK took of the frame are its first `tx_pos` bytes, in order, once (R211), at
the end of `wire` (the model's record of them, log entry 5). -/
def Obligations.EveryStepKeepsTheWireInOrder : Prop :=
  ∀ s t : State, wireOk s → step s = .next t → wireOk t

/-! ## The register port -/

/-- R44 to R48: what RD of the status and progress registers returns, in every state, frozen ones included. The returned word
is `rdData` (the model's choice, log entry 4), here and in every statement about RD. -/
def Obligations.RdReturnsTheStatusWords : Prop :=
  ∀ (s : State) (ignored : Word32),
    (∃ v : Word32, exec (.rd 0x004 ignored) s = .next { s with rdData := some v } ∧
      (v.extractLsb' 0 2).toNat =
        (match s.rxState with | .seekSync => 0 | .readLen => 1 | .readBody => 2 | .validate => 3) ∧
      v.getLsbD 2 = s.stChValid ∧ v.getLsbD 3 = s.stLinkValid ∧ v.getLsbD 4 = s.txBusy ∧
      (v.extractLsb' 5 2).toNat = (match s.txResult with | .none => 0 | .ok => 1 | .fail => 2) ∧
      v.getLsbD 7 = s.rxDead ∧ v.getLsbD 8 = s.en ∧ v.getLsbD 9 = s.faulted ∧ v.extractLsb' 10 22 = 0) ∧
    exec (.rd 0x008 ignored) s = .next { s with rdData := some (BitVec.ofNat 32 (codeNumber s.faultCode)) } ∧
    exec (.rd 0x00C ignored) s = .next { s with rdData := some s.faultInfo } ∧
    (∃ v : Word32, exec (.rd 0x010 ignored) s = .next { s with rdData := some v } ∧ v.extractLsb' 0 8 = s.rxDest ∧
      v.extractLsb' 8 8 = s.rxLen ∧ v.extractLsb' 16 6 = s.rxCnt ∧ v.extractLsb' 22 10 = 0) ∧
    (∃ v : Word32, exec (.rd 0x014 ignored) s = .next { s with rdData := some v } ∧ v.toNat = s.crcAcc.toNat) ∧
    (∃ v : Word32, exec (.rd 0x018 ignored) s = .next { s with rdData := some v } ∧ v.extractLsb' 0 7 = s.txLen ∧
      v.getLsbD 7 = false ∧ v.extractLsb' 8 7 = s.txPos ∧ v.extractLsb' 15 17 = 0)

/-- R43, R66: what RD of every array and input register returns: its element, zero-extended. -/
def Obligations.RdReturnsTheDataRegisters : Prop :=
  ∀ (s : State) (ignored : Word32),
    (∀ k : Fin 16, rdGives s ignored (0x040 + 4 * k.val) s.shCh[k].toNat) ∧
    (∀ k : Fin 10, rdGives s ignored (0x080 + 4 * k.val) s.shLink[k].toNat) ∧
    (∀ k : Fin 16, rdGives s ignored (0x100 + 4 * k.val) s.cch[k].toNat) ∧
    (∀ k : Fin 22, rdGives s ignored (0x140 + 4 * k.val) s.cpk[k].toNat) ∧
    rdGives s ignored 0x1A0 s.batVoltage.toNat ∧ rdGives s ignored 0x1A4 s.batCurrent.toNat ∧
    rdGives s ignored 0x1A8 s.batCapacity.toNat ∧ rdGives s ignored 0x1AC s.batRemaining.toNat ∧
    rdGives s ignored 0x1B0 s.gpsLat.toNat ∧ rdGives s ignored 0x1B4 s.gpsLon.toNat ∧
    rdGives s ignored 0x1B8 s.gpsGspd.toNat ∧ rdGives s ignored 0x1BC s.gpsHeading.toNat ∧
    rdGives s ignored 0x1C0 s.gpsAlt.toNat ∧ rdGives s ignored 0x1C4 s.gpsSats.toNat ∧
    (∀ k : Fin 60, rdGives s ignored (0x200 + 4 * k.val) s.txp[k].toNat) ∧
    (∀ k : Fin 64, rdGives s ignored (0x400 + 4 * k.val) s.txBuf[k].toNat)

/-- RD of a readable offset returns a word and changes nothing else (R66, R68); on a live block every other RD faults
BAD_ACCESS with the offset as info and no other effect (R62, R63, R64). -/
def Obligations.RdServesExactlyTheReadableOffsets : Prop :=
  ∀ (off : Offset) (ignored : Word32) (s : State),
    (readable off → ∃ v, exec (.rd off ignored) s = .next { s with rdData := some v }) ∧
    (live s → ¬ readable off → exec (.rd off ignored) s = .next (faulting .badAccess (off.setWidth 32) s))

/-- On a live block a WR to an offset that is neither CMD nor a RW register faults BAD_ACCESS, info the offset with bit 12
set, with no other effect (R62, R63, R64). -/
def Obligations.WrOutsideWritableOffsetsFaults : Prop :=
  ∀ (off : Offset) (v : Word32) (s : State), live s → off ≠ 0x000 → ¬ dataOffset off →
    exec (.wr off v) s = .next (faulting .badAccess (BitVec.ofNat 32 (0x1000 + off.toNat)) s)

/-- R67: a WR that fits a RW register stores it and changes only that element. -/
def Obligations.WrStoresTheDataRegisters : Prop :=
  ∀ (s : State) (v : Word32), live s →
    (∀ k : Fin 16, wrGives s v (0x100 + 4 * k.val) 11 { s with cch := s.cch.set k.val (BitVec.ofNat 11 v.toNat) }) ∧
    (∀ k : Fin 22, wrGives s v (0x140 + 4 * k.val) 8 { s with cpk := s.cpk.set k.val (BitVec.ofNat 8 v.toNat) }) ∧
    wrGives s v 0x1A0 16 { s with batVoltage := BitVec.ofNat 16 v.toNat } ∧
    wrGives s v 0x1A4 16 { s with batCurrent := BitVec.ofNat 16 v.toNat } ∧
    wrGives s v 0x1A8 24 { s with batCapacity := BitVec.ofNat 24 v.toNat } ∧
    wrGives s v 0x1AC 8 { s with batRemaining := BitVec.ofNat 8 v.toNat } ∧
    wrGives s v 0x1B0 32 { s with gpsLat := v } ∧
    wrGives s v 0x1B4 32 { s with gpsLon := v } ∧
    wrGives s v 0x1B8 16 { s with gpsGspd := BitVec.ofNat 16 v.toNat } ∧
    wrGives s v 0x1BC 16 { s with gpsHeading := BitVec.ofNat 16 v.toNat } ∧
    wrGives s v 0x1C0 16 { s with gpsAlt := BitVec.ofNat 16 v.toNat } ∧
    wrGives s v 0x1C4 8 { s with gpsSats := BitVec.ofNat 8 v.toNat } ∧
    (∀ k : Fin 60, wrGives s v (0x200 + 4 * k.val) 8 { s with txp := s.txp.set k.val (BitVec.ofNat 8 v.toNat) })

/-- R65: a WR with a non-zero reserved bit faults BAD_VALUE, info the offset with bit 12 set, and stores nothing. -/
def Obligations.WrReservedBitsFault : Prop :=
  ∀ (off : Offset) (v : Word32) (s : State), live s → dataOffset off → 2 ^ fieldWidth off ≤ v.toNat →
    exec (.wr off v) s = .next (faulting .badValue (BitVec.ofNat 32 (0x1000 + off.toNat)) s)

/-- A WR that fits is read back as written, and every other register still reads what it read before (R68, D44). -/
def Obligations.WrIsReadBackAndLeavesTheRest : Prop :=
  ∀ (off : Offset) (v ignored : Word32) (s : State), live s → dataOffset off → v.toNat < 2 ^ fieldWidth off →
    ∃ t, exec (.wr off v) s = .next t ∧ exec (.rd off ignored) t = .next { t with rdData := some v } ∧
      ∀ (other : Offset) (x : Word32), readable other → other ≠ off →
        exec (.rd other ignored) s = .next { s with rdData := some x } →
        exec (.rd other ignored) t = .next { t with rdData := some x }

/-! ## The CRC engine -/

/-- R123: CRC_CLEAR sets `crc_acc` to 0x00, enabled or not, and nothing else; a non-zero argument is ILLEGAL_CMD. -/
def Obligations.CrcClearRestartsTheAccumulator : Prop :=
  ∀ s : State, live s → commandGives .crcClear 0x00000002 s { s with crcAcc := 0x00 } ∧
    ∀ w : Word32, w.extractLsb' 0 8 = 0x02 → w.extractLsb' 8 24 ≠ 0 → illegalCommand w s

/-- R124: CRC_FEED folds its byte into `crc_acc`, enabled or not, and nothing else; non-zero B or C is ILLEGAL_CMD. -/
def Obligations.CrcFeedFoldsItsByte : Prop :=
  ∀ (s : State) (a : Byte), live s →
    commandGives (.crcFeed a) (0#16 ++ a ++ 0x03#8) s { s with crcAcc := crcStep s.crcAcc a } ∧
    ∀ w : Word32, w.extractLsb' 0 8 = 0x03 → w.extractLsb' 16 16 ≠ 0 → illegalCommand w s

/-- `crc_step(c, b)` is `T[c ^ b]` for a table T linear over XOR with the eight generating entries of
95_test_vectors.md §2.1, which fix all 256. -/
def Obligations.CrcStepIsTheTable : Prop :=
  (∀ c b : Byte, crcStep c b = crcStep 0x00 (c ^^^ b)) ∧
  (∀ x y : Byte, crcStep 0x00 (x ^^^ y) = crcStep 0x00 x ^^^ crcStep 0x00 y) ∧
  crcStep 0x00 0x01 = 0xD5 ∧ crcStep 0x00 0x02 = 0x7F ∧ crcStep 0x00 0x04 = 0xFE ∧ crcStep 0x00 0x08 = 0x29 ∧
  crcStep 0x00 0x10 = 0x52 ∧ crcStep 0x00 0x20 = 0xA4 ∧ crcStep 0x00 0x40 = 0x9D ∧ crcStep 0x00 0x80 = 0xEF

/-- CRC_CLEAR and then CRC_FEED of a byte sequence, as a run of the machine, leave `crc8` of it in `crc_acc` (R25, R124). -/
def Obligations.CrcCommandsComputeCrc8 : Prop :=
  ∀ (s : State) (bytes : List Byte), live s →
    runInputs (hostCommand 0x00000002 :: bytes.map feedWord) s = .next { s with crcAcc := crc8 bytes }

/-- R122: appending a byte gives CRC 0x00 exactly when the byte is the CRC. -/
def Obligations.CrcResidueIsZero : Prop :=
  ∀ (x : List Byte), crc8 (x ++ [crc8 x]) = 0x00 ∧ ∀ b : Byte, crc8 (x ++ [b]) = 0x00 → b = crc8 x

/-- R128: the CRC is linear over bytewise XOR of sequences of equal length. -/
def Obligations.CrcIsLinear : Prop :=
  ∀ x y : List Byte, x.length = y.length → crc8 (List.zipWith (· ^^^ ·) x y) = crc8 x ^^^ crc8 y

/-- R126: changing exactly one bit of a sequence changes its CRC. -/
def Obligations.CrcDetectsEverySingleBitError : Prop :=
  ∀ (x : List Byte) (k j : Nat) (h : k < x.length), j < 8 →
    crc8 (x.set k (x[k] ^^^ BitVec.twoPow 8 j)) ≠ crc8 x

/-! ## The channel codec -/

/-- R140: bit j of channel i is stream bit 11·i + j, and stream bit k is bit k mod 8 of byte k div 8, both ways. -/
def Obligations.CodecFollowsTheBitStream : Prop :=
  (∀ (p : Vector Byte 22) (i : Fin 16) (j : Fin 11),
    (unpack22 p)[i].getLsbD j.val =
      (p[(11 * i.val + j.val) / 8]'(by omega)).getLsbD ((11 * i.val + j.val) % 8)) ∧
  (∀ (ch : Vector Chan 16) (k : Fin 22) (j : Fin 8),
    (pack16 ch)[k].getLsbD j.val =
      (ch[(8 * k.val + j.val) / 11]'(by omega)).getLsbD ((8 * k.val + j.val) % 11))

/-- R143: packing and unpacking are inverse to each other. -/
def Obligations.CodecRoundTrips : Prop :=
  (∀ v : Vector Chan 16, unpack22 (pack16 v) = v) ∧ (∀ p : Vector Byte 22, pack16 (unpack22 p) = p)

/-- R145: CH_UNPACK writes `unpack22(cpk)` to `cch`, enabled or not, and nothing else. -/
def Obligations.ChUnpackUnpacksTheScratch : Prop :=
  ∀ s : State, live s → commandGives .chUnpack 0x00000004 s { s with cch := unpack22 s.cpk } ∧
    ∀ w : Word32, w.extractLsb' 0 8 = 0x04 → w.extractLsb' 8 24 ≠ 0 → illegalCommand w s

/-- R146: CH_PACK writes `pack16(cch)` to `cpk`, enabled or not, and nothing else; CH_UNPACK after it leaves `cch` as it was. -/
def Obligations.ChPackPacksTheScratch : Prop :=
  ∀ s : State, live s → commandGives .chPack 0x00000005 s { s with cpk := pack16 s.cch } ∧
    exec .chUnpack { s with cpk := pack16 s.cch } = .next { s with cpk := pack16 s.cch } ∧
    ∀ w : Word32, w.extractLsb' 0 8 = 0x05 → w.extractLsb' 8 24 ≠ 0 → illegalCommand w s

/-! ## The framer -/

/-- R162: in SEEK_SYNC a sync byte starts a frame and every other byte is discarded. -/
def Obligations.SeekTakesOnlySyncBytes : Prop :=
  ∀ (s : State) (d : Byte), receiving s → s.rxState = .seekSync →
    ((d = 0xC8 ∨ d = 0xEA) → exec (.rxByte d) s = .next { s with rxDest := d, rxState := .readLen }) ∧
    (d ≠ 0xC8 → d ≠ 0xEA → exec (.rxByte d) s = .next s)

/-- R163: in READ_LEN a length in 2..62 is accepted; any other is consumed and the framer seeks again. -/
def Obligations.ReadLenAcceptsTwoToSixtyTwo : Prop :=
  ∀ (s : State) (d : Byte), receiving s → s.rxState = .readLen →
    (2 ≤ d.toNat → d.toNat ≤ 62 →
      exec (.rxByte d) s = .next { s with rxLen := d, rxCnt := 0, rxState := .readBody }) ∧
    ((d.toNat < 2 ∨ 62 < d.toNat) →
      exec (.rxByte d) s = .next { s with rxState := .seekSync, rxDest := 0, rxLen := 0, rxCnt := 0 })

/-- R164: in READ_BODY every byte, sync values included, is stored; the framer stays until the body is complete. -/
def Obligations.ReadBodyAccumulates : Prop :=
  ∀ (s : State) (d : Byte) (h : s.rxCnt.toNat < 62), receiving s → s.rxState = .readBody →
    s.rxCnt.toNat + 1 ≠ s.rxLen.toNat →
    exec (.rxByte d) s = .next { s with rxBuf := s.rxBuf.set s.rxCnt.toNat d, rxCnt := s.rxCnt + 1 }

/-- R165 to R169: the byte that completes a body validates and dispatches in the same step. With the CRC right, a channels
frame of 22 payload bytes and a link frame of 10 replace their snapshot whole; every other frame changes no store. -/
def Obligations.LastBodyByteValidatesAndDispatches : Prop :=
  ∀ (s : State) (d type : Byte) (payload : List Byte) (h : s.rxCnt.toNat < 62), receiving s → s.rxState = .readBody →
    s.rxLen.toNat = s.rxCnt.toNat + 1 → s.rxBuf.toList.take s.rxCnt.toNat = type :: payload →
    let t := { s with rxBuf := s.rxBuf.set s.rxCnt.toNat d, rxState := .seekSync, rxDest := 0, rxLen := 0, rxCnt := 0 }
    (d ≠ crc8 (type :: payload) → exec (.rxByte d) s = .next t) ∧
    (d = crc8 (type :: payload) →
      (∀ p : Vector Byte 22, type = 0x16 → p.toList = payload →
        exec (.rxByte d) s = .next { t with stCh := unpack22 p, stChValid := true }) ∧
      (∀ p : Vector Byte 10, type = 0x14 → p.toList = payload →
        exec (.rxByte d) s = .next { t with stLink := p, stLinkValid := true }) ∧
      (¬ (type = 0x16 ∧ payload.length = 22) → ¬ (type = 0x14 ∧ payload.length = 10) →
        exec (.rxByte d) s = .next t))

/-- The RX port before INIT and after a fatal error, in the order of R264 (R260, codes 8 and 9): the fault, info the port
word, and no other effect. -/
def Obligations.RxPortFaultsBeforeInitAndAfterDead : Prop :=
  ∀ (i : Instr) (w : BitVec 10) (s : State), live s → encode i = .rxw w →
    (s.en = false → exec i s = .next (faulting .rxNotEnabled (w.setWidth 32) s)) ∧
    (s.en = true → s.rxDead = true → exec i s = .next (faulting .rxAfterDead (w.setWidth 32) s))

/-- R173: RX_ERR_TRANSIENT changes nothing, and faults like every RX word before INIT and after a fatal error. -/
def Obligations.TransientErrorChangesNothing : Prop :=
  decode (.rxw 0x100) = .ok .rxErrTransient ∧ ∀ s : State,
    (receiving s → exec .rxErrTransient s = .next s) ∧
    (live s → s.en = false → exec .rxErrTransient s = .next (faulting .rxNotEnabled 0x00000100 s)) ∧
    (live s → s.en = true → s.rxDead = true → exec .rxErrTransient s = .next (faulting .rxAfterDead 0x00000100 s))

/-- R174: RX_ERR_FATAL sets `rx_dead` and nothing else, and faults before INIT and when repeated; no instruction clears
`rx_dead`. -/
def Obligations.FatalErrorSetsRxDead : Prop :=
  decode (.rxw 0x200) = .ok .rxErrFatal ∧
  (∀ (i : Instr) (s t : State), exec i s = .next t → s.rxDead = true → t.rxDead = true) ∧ ∀ s : State,
    (receiving s → exec .rxErrFatal s = .next { s with rxDead := true }) ∧
    (live s → s.en = false → exec .rxErrFatal s = .next (faulting .rxNotEnabled 0x00000200 s)) ∧
    (live s → s.en = true → s.rxDead = true → exec .rxErrFatal s = .next (faulting .rxAfterDead 0x00000200 s))

/-- Any run of noise without a sync byte leaves the framer, and everything else, as it was (R162, R177). -/
def Obligations.NoiseIsSkipped : Prop :=
  ∀ (s : State) (noise : List Byte), receiving s → s.rxState = .seekSync →
    (∀ b ∈ noise, b ≠ 0xC8 ∧ b ≠ 0xEA) → receive noise s = .next s

/-- A whole valid frame, received from SEEK_SYNC as a run of the machine, has exactly the effect R165 to R169 give its type
and size: one snapshot update for channels and link, none for any other. -/
def Obligations.ValidFrameIsReceived : Prop :=
  ∀ (s : State) (dest type : Byte) (payload : List Byte), receiving s → s.rxState = .seekSync →
    (dest = 0xC8 ∨ dest = 0xEA) → payload.length ≤ 60 →
    ∃ t, receive (wireFrame dest type payload) s = .next t ∧ afterFrame type payload s t

/-- R176: a frame with a CRC mismatch is consumed whole and leaves only `rx_buf` and the cleared framer behind; a valid
frame after it is decoded as if it had not been sent. -/
def Obligations.CorruptFrameIsDiscarded : Prop :=
  ∀ (s : State) (dest len : Byte) (body : List Byte), receiving s → s.rxState = .seekSync →
    (dest = 0xC8 ∨ dest = 0xEA) → 2 ≤ len.toNat → len.toNat ≤ 62 → body.length = len.toNat →
    crc8 body.dropLast ≠ body.getLastD 0 →
    (∃ t, receive (dest :: len :: body) s = .next t ∧
      t = { s with rxState := .seekSync, rxDest := 0, rxLen := 0, rxCnt := 0, rxBuf := t.rxBuf }) ∧
    ∀ (dest' type : Byte) (payload : List Byte), (dest' = 0xC8 ∨ dest' = 0xEA) → payload.length ≤ 60 →
      ∃ t, receive (dest :: len :: body ++ wireFrame dest' type payload) s = .next t ∧ afterFrame type payload s t

/-- R32: the stale elements of `rx_buf`, at and beyond `rx_cnt`, are read by nothing: two states that differ only there
answer every step alike. -/
def Obligations.StaleBufferIsUnobservable : Prop :=
  ∀ (s : State) (stale : Vector Byte 62), (∀ k : Fin 62, k.val < s.rxCnt.toNat → stale[k] = s.rxBuf[k]) →
    sameButStale (step s) (step { s with rxBuf := stale })

/-! ## The builder and the sink -/

/-- R205: SEND_BATTERY builds the battery frame from its registers, most significant byte first, and starts it; its faults
in their order. -/
def Obligations.SendBatteryBuildsItsFrame : Prop :=
  ∀ (s : State) (d : Byte),
    let w : Word32 := 0#16 ++ d ++ 0x08#8
    let body : List Byte := [0x08, s.batVoltage.extractLsb' 8 8, s.batVoltage.extractLsb' 0 8,
      s.batCurrent.extractLsb' 8 8, s.batCurrent.extractLsb' 0 8, s.batCapacity.extractLsb' 16 8,
      s.batCapacity.extractLsb' 8 8, s.batCapacity.extractLsb' 0 8, s.batRemaining]
    (maySend s → (d = 0xC8 ∨ d = 0xEA) →
      sendGives (.sendBattery d) w s ([d, 0x0A] ++ body ++ [crc8 body])) ∧
    (live s → s.en = false → commandGives (.sendBattery d) w s (faulting .notEnabled w s)) ∧
    (live s → s.en = true → s.txBusy = true → commandGives (.sendBattery d) w s (faulting .txOverlap w s)) ∧
    (maySend s → d ≠ 0xC8 → d ≠ 0xEA → commandGives (.sendBattery d) w s (faulting .badArg w s)) ∧
    (∀ u : Word32, live s → u.extractLsb' 0 8 = 0x08 → u.extractLsb' 16 16 ≠ 0 → illegalCommand u s)

/-- R206: SEND_GPS builds the GPS frame from its registers, most significant byte first, the altitude with the encoder
offset added modulo 2^16, and starts it; its faults in their order. The offset is 0 or 1000, whichever (log entry 6). -/
def Obligations.SendGpsBuildsItsFrame : Prop :=
  (Config.gpsAltEncoderOffset = 0 ∨ Config.gpsAltEncoderOffset = 1000) ∧
  ∀ (s : State) (d : Byte),
    let w : Word32 := 0#16 ++ d ++ 0x09#8
    let alt := BitVec.ofNat 16 (s.gpsAlt.toNat + Config.gpsAltEncoderOffset.toNat)
    let body : List Byte := [0x02, s.gpsLat.extractLsb' 24 8, s.gpsLat.extractLsb' 16 8, s.gpsLat.extractLsb' 8 8,
      s.gpsLat.extractLsb' 0 8, s.gpsLon.extractLsb' 24 8, s.gpsLon.extractLsb' 16 8, s.gpsLon.extractLsb' 8 8,
      s.gpsLon.extractLsb' 0 8, s.gpsGspd.extractLsb' 8 8, s.gpsGspd.extractLsb' 0 8, s.gpsHeading.extractLsb' 8 8,
      s.gpsHeading.extractLsb' 0 8, alt.extractLsb' 8 8, alt.extractLsb' 0 8, s.gpsSats]
    (maySend s → (d = 0xC8 ∨ d = 0xEA) → sendGives (.sendGps d) w s ([d, 0x11] ++ body ++ [crc8 body])) ∧
    (live s → s.en = false → commandGives (.sendGps d) w s (faulting .notEnabled w s)) ∧
    (live s → s.en = true → s.txBusy = true → commandGives (.sendGps d) w s (faulting .txOverlap w s)) ∧
    (maySend s → d ≠ 0xC8 → d ≠ 0xEA → commandGives (.sendGps d) w s (faulting .badArg w s)) ∧
    (∀ u : Word32, live s → u.extractLsb' 0 8 = 0x09 → u.extractLsb' 16 16 ≠ 0 → illegalCommand u s)

/-- R207: SEND_RAW builds a frame of any type from the first C bytes of `txp` and starts it; its faults in their order,
BAD_ARG for a destination that is no sync byte, a length above 60, or a length other than the type's own (R203, R204). -/
def Obligations.SendRawBuildsItsFrame : Prop :=
  ∀ (s : State) (d ty c : Byte),
    let w : Word32 := c ++ ty ++ d ++ 0x0A#8
    let sizeOk := (ty = 0x16 → c.toNat = 22) ∧ (ty = 0x14 → c.toNat = 10) ∧ (ty = 0x08 → c.toNat = 8) ∧
      (ty = 0x02 → c.toNat = 15)
    let body : List Byte := ty :: s.txp.toList.take c.toNat
    (maySend s → (d = 0xC8 ∨ d = 0xEA) → c.toNat ≤ 60 → sizeOk →
      sendGives (.sendRaw d ty c.toNat) w s ([d, c + 2] ++ body ++ [crc8 body])) ∧
    (live s → s.en = false → commandGives (.sendRaw d ty c.toNat) w s (faulting .notEnabled w s)) ∧
    (live s → s.en = true → s.txBusy = true → commandGives (.sendRaw d ty c.toNat) w s (faulting .txOverlap w s)) ∧
    (maySend s → ((d ≠ 0xC8 ∧ d ≠ 0xEA) ∨ 60 < c.toNat ∨ ¬ sizeOk) →
      commandGives (.sendRaw d ty c.toNat) w s (faulting .badArg w s))

/-- R208: SINK_TAKE N takes the next N bytes of the frame, in order; the last ones end the send with OK. The bytes taken are
kept in `wire` (the model's choice, log entry 5). -/
def Obligations.SinkTakeTakesTheNextBytes : Prop :=
  ∀ (s : State) (n : Nat), live s → s.txBusy = true →
    let t := { s with txPos := BitVec.ofNat 7 (s.txPos.toNat + n),
                      wire := s.wire ++ (s.txBuf.toList.drop s.txPos.toNat).take n }
    (s.txPos.toNat + n < s.txLen.toNat → exec (.sinkTake n) s = .next t) ∧
    (s.txPos.toNat + n = s.txLen.toNat →
      exec (.sinkTake n) s = .next { t with txBusy := false, txResult := .ok })

/-- R209: SINK_FAIL ends the send with FAIL and keeps the count already written. -/
def Obligations.SinkFailEndsTheSend : Prop :=
  decode (.sinkw 0x80) = .ok .sinkFail ∧ ∀ s : State, live s → s.txBusy = true →
    exec .sinkFail s = .next { s with txBusy := false, txResult := .fail }

/-- R210: sink words outside the SINK's duties are no steps: the model refuses them by name (log entry 8). -/
def Obligations.SinkWordsOutsideItsDutiesAreNoSteps : Prop :=
  ∀ (s : State) (n : Nat),
    (s.faulted = true ∨ s.txBusy = false →
      exec (.sinkTake n) s = .refused .sinkNoStep ∧ exec .sinkFail s = .refused .sinkNoStep) ∧
    (live s → s.txBusy = true → s.txLen.toNat < s.txPos.toNat + n → exec (.sinkTake n) s = .refused .sinkOverrun) ∧
    (∀ (w : BitVec 8) (rest : List Input), 0x81 ≤ w.toNat → s.inputs = .sink w :: rest →
      step s = .refused .sinkIllegalWord)

/-- A channels frame that SEND_RAW builds from packed channels is decoded to those channels by the block's own framer
(R200, R207): the builder and the framer agree on every byte. -/
def Obligations.BuiltChannelsFrameDecodesToItsChannels : Prop :=
  ∀ (s : State) (d : Byte) (v : Vector Chan 16), maySend s → receiving s → s.rxState = .seekSync →
    (d = 0xC8 ∨ d = 0xEA) → s.txp.toList.take 22 = (pack16 v).toList →
    ∃ t u, exec (.sendRaw d 0x16 22) s = .next t ∧ receive (builtFrame t) t = .next u ∧
      u.stCh = v ∧ u.stChValid = true ∧ u.rxState = .seekSync ∧ u.txBuf = t.txBuf

/-- R212, R214: while a send is in flight no operation changes the frame: a SEND faults, register writes do not reach it. -/
def Obligations.FrameInFlightIsFixed : Prop :=
  ∀ (i : Instr) (s t : State), s.txBusy = true → exec i s = .next t →
    t.txBuf = s.txBuf ∧ t.txLen = s.txLen ∧
    (live s → isSend i → t = faulting .txOverlap t.faultInfo s ∨ t = faulting .notEnabled t.faultInfo s)

/-! ## The store and the enable -/

/-- R240: INIT sets `en` and nothing else; a second INIT faults DOUBLE_INIT; a non-zero argument is ILLEGAL_CMD; no
instruction clears `en`. -/
def Obligations.InitStartsTheBlockOnce : Prop :=
  (∀ (i : Instr) (s t : State), exec i s = .next t → s.en = true → t.en = true) ∧ ∀ s : State, live s →
    (s.en = false → commandGives .init 0x00000001 s { s with en := true }) ∧
    (s.en = true → commandGives .init 0x00000001 s (faulting .doubleInit 0x00000001 s)) ∧
    ∀ w : Word32, w.extractLsb' 0 8 = 0x01 → w.extractLsb' 8 24 ≠ 0 → illegalCommand w s

/-- R241: LATCH_CH copies the channel snapshot to its shadow in one step, enabled or not, and nothing else. -/
def Obligations.LatchChCopiesTheSnapshot : Prop :=
  ∀ s : State, live s → commandGives .latchCh 0x00000006 s { s with shCh := s.stCh } ∧
    ∀ w : Word32, w.extractLsb' 0 8 = 0x06 → w.extractLsb' 8 24 ≠ 0 → illegalCommand w s

/-- R242: LATCH_LINK copies the link snapshot to its shadow in one step, enabled or not, and nothing else. -/
def Obligations.LatchLinkCopiesTheSnapshot : Prop :=
  ∀ s : State, live s → commandGives .latchLink 0x00000007 s { s with shLink := s.stLink } ∧
    ∀ w : Word32, w.extractLsb' 0 8 = 0x07 → w.extractLsb' 8 24 ≠ 0 → illegalCommand w s

/-! ## Whole-machine rules -/

/-- R261: faults are precise: an operation that faults changes nothing but the fault record, as an instruction and as a step
(which consumes the word that faults: the model's choice, log entry 1). -/
def Obligations.FaultsArePrecise : Prop :=
  (∀ (i : Instr) (s t : State), live s → exec i s = .next t → t.faulted = true →
    t = faulting t.faultCode t.faultInfo s ∧ t.faultCode ≠ .none) ∧
  (∀ s t : State, live s → step s = .next t → t.faulted = true →
    t = faulting t.faultCode t.faultInfo { s with inputs := s.inputs.tail } ∧ t.faultCode ≠ .none)

/-- R262, R263: on a frozen block every step but reset keeps the fault record and every element; only the consumed word
(log entry 1) and the word a RD returns (log entry 4) differ. A RD that would fault returns 0x00000000. -/
def Obligations.FrozenBlockKeepsEverything : Prop :=
  ∀ s : State, s.faulted = true →
    (∀ t, step s = .next t → (∀ rest, s.inputs ≠ .reset :: rest) →
      t = { s with inputs := t.inputs, rdData := t.rdData }) ∧
    (∀ (off : Offset) (v : Word32), exec (.wr off v) s = .next s) ∧
    (∀ (i : Instr) (w : BitVec 10), encode i = .rxw w → exec i s = .next s) ∧
    (∀ (off : Offset) (ignored : Word32), ¬ readable off →
      exec (.rd off ignored) s = .next { s with rdData := some 0x00000000 })

/-- R160: no instruction but RX_BYTE, so no host command, sink word or register access, changes the framer or the store; only
RX_ERR_FATAL changes `rx_dead`. -/
def Obligations.OnlyRxByteChangesFramerAndStore : Prop :=
  ∀ (i : Instr) (s t : State), exec i s = .next t → (∀ d, i ≠ .rxByte d) →
    t.rxState = s.rxState ∧ t.rxDest = s.rxDest ∧ t.rxLen = s.rxLen ∧ t.rxCnt = s.rxCnt ∧ t.rxBuf = s.rxBuf ∧
    t.stCh = s.stCh ∧ t.stChValid = s.stChValid ∧ t.stLink = s.stLink ∧ t.stLinkValid = s.stLinkValid ∧
    (t.rxDead ≠ s.rxDead → i = .rxErrFatal)

/-- Which operations write which element: the shadows only their LATCH (R36), `crc_acc` only CRC_CLEAR and CRC_FEED (R25,
R125), `tx_buf` only a SEND (R40), `en` only INIT (R23). Of the model's own fields, `rdData` only RD (log entry 4) and `wire`
only SINK_TAKE (log entry 5). -/
def Obligations.ElementsHaveTheirWriters : Prop :=
  ∀ (i : Instr) (s t : State), exec i s = .next t →
    (t.shCh ≠ s.shCh → performed i = .latchCh ∧ t.shCh = s.stCh) ∧
    (t.shLink ≠ s.shLink → performed i = .latchLink ∧ t.shLink = s.stLink) ∧
    (t.crcAcc ≠ s.crcAcc → performed i = .crcClear ∨ ∃ a, performed i = .crcFeed a) ∧
    (t.txBuf ≠ s.txBuf → isSend (performed i) ∧ s.txBusy = false) ∧
    (t.en ≠ s.en → performed i = .init ∧ t.en = true) ∧
    (t.rdData ≠ s.rdData → ∃ off ignored, i = .rd off ignored) ∧
    (t.wire ≠ s.wire → ∃ n, i = .sinkTake n)
end

