-- ==== Sys2Proof/Laws/Codec.lean ====
section
/-! SUPPORT. The channel codec's small lemmas: the bits of a joined stream and of one of its fields (41_channel_codec.md
R141, R142). -/

namespace Sys2Proof.Machine

/-- Bit `k` of a joined stream is bit `k % w` of its element `k / w`. -/
theorem joinFields_testBit (w : Nat) (hw : 0 < w) (xs : List (BitVec w)) (k : Nat) :
    (joinFields w xs).testBit k = (xs.getD (k / w) 0).getLsbD (k % w) := by
  induction xs generalizing k with
  | nil => simp [joinFields]
  | cons x xs ih =>
    rw [joinFields, Nat.add_comm, Nat.testBit_two_pow_mul_add _ x.isLt]
    split
    · next h => simp [Nat.div_eq_of_lt h, Nat.mod_eq_of_lt h, BitVec.getLsbD]
    · next h =>
      have hk : w ≤ k := Nat.le_of_not_lt h
      rw [ih, Nat.div_eq_sub_div hw hk, Nat.mod_eq_sub_mod hk]
      simp

/-- Bit `j` of field `i` is bit `w*i + j` of the stream. -/
theorem field_getLsbD (w i n j : Nat) (hj : j < w) : (field w i n).getLsbD j = n.testBit (w * i + j) := by
  rw [field, BitVec.getLsbD_ofNat]
  simp [hj, Nat.testBit_shiftRight]

end Sys2Proof.Machine
end

