-- ==== Sys2Proof/Laws/Crc.lean ====
section
/-! SUPPORT. The CRC engine's small lemmas: a shift is linear over XOR and loses nothing, `crc8` folds byte by byte
(40_crc.md R120, R121). -/

namespace Sys2Proof.Machine

/-- One shift is linear over XOR. -/
theorem crcShift_xor (x y : Byte) : crcShift (x ^^^ y) = crcShift x ^^^ crcShift y := by
  unfold crcShift
  rw [BitVec.getLsbD_xor]
  cases x.getLsbD 7 <;> cases y.getLsbD 7 <;> simp [BitVec.shiftLeft_xor_distrib] <;> (ext i hi; simp; try grind)

/-- So are any number of shifts. -/
theorem crcShifts_xor (n : Nat) (x y : Byte) : crcShifts n (x ^^^ y) = crcShifts n x ^^^ crcShifts n y := by
  induction n generalizing x y with
  | zero => rfl
  | succ n ih => rw [crcShifts, crcShifts, crcShifts, crcShift_xor, ih]

/-- Only the zero byte is folded to zero by eight shifts. -/
theorem eq_zero_of_crcShifts : ∀ x : Byte, crcShifts 8 x = 0 → x = 0 := by decide +kernel

/-- `crc8` of a sequence with a byte appended. -/
theorem crc8_concat (x : List Byte) (b : Byte) : crc8 (x ++ [b]) = crcStep (crc8 x) b := by
  simp [crc8]

@[simp] theorem crc8_nil : crc8 [] = 0x00 := rfl

end Sys2Proof.Machine
end

