-- ==== Sys2Proof/Laws/State.lean ====
section
/-! SUPPORT. One lemma per field and shared update of the state, each true by unfolding the update once, so that no proof
about a field unfolds a record update again. -/

namespace Sys2Proof.Machine

/-! ### `faultEntry` -/

@[simp] theorem faultEntry_en (code : FaultCode) (info : Word32) (s : State) : (faultEntry code info s).en = s.en := rfl
@[simp] theorem faultEntry_faulted (code : FaultCode) (info : Word32) (s : State) : (faultEntry code info s).faulted = true := rfl
@[simp] theorem faultEntry_faultCode (code : FaultCode) (info : Word32) (s : State) : (faultEntry code info s).faultCode = code := rfl
@[simp] theorem faultEntry_faultInfo (code : FaultCode) (info : Word32) (s : State) : (faultEntry code info s).faultInfo = info := rfl
@[simp] theorem faultEntry_crcAcc (code : FaultCode) (info : Word32) (s : State) : (faultEntry code info s).crcAcc = s.crcAcc := rfl
@[simp] theorem faultEntry_cch (code : FaultCode) (info : Word32) (s : State) : (faultEntry code info s).cch = s.cch := rfl
@[simp] theorem faultEntry_cpk (code : FaultCode) (info : Word32) (s : State) : (faultEntry code info s).cpk = s.cpk := rfl
@[simp] theorem faultEntry_rxState (code : FaultCode) (info : Word32) (s : State) : (faultEntry code info s).rxState = s.rxState := rfl
@[simp] theorem faultEntry_rxDest (code : FaultCode) (info : Word32) (s : State) : (faultEntry code info s).rxDest = s.rxDest := rfl
@[simp] theorem faultEntry_rxLen (code : FaultCode) (info : Word32) (s : State) : (faultEntry code info s).rxLen = s.rxLen := rfl
@[simp] theorem faultEntry_rxCnt (code : FaultCode) (info : Word32) (s : State) : (faultEntry code info s).rxCnt = s.rxCnt := rfl
@[simp] theorem faultEntry_rxBuf (code : FaultCode) (info : Word32) (s : State) : (faultEntry code info s).rxBuf = s.rxBuf := rfl
@[simp] theorem faultEntry_rxDead (code : FaultCode) (info : Word32) (s : State) : (faultEntry code info s).rxDead = s.rxDead := rfl
@[simp] theorem faultEntry_stCh (code : FaultCode) (info : Word32) (s : State) : (faultEntry code info s).stCh = s.stCh := rfl
@[simp] theorem faultEntry_stChValid (code : FaultCode) (info : Word32) (s : State) : (faultEntry code info s).stChValid = s.stChValid := rfl
@[simp] theorem faultEntry_stLink (code : FaultCode) (info : Word32) (s : State) : (faultEntry code info s).stLink = s.stLink := rfl
@[simp] theorem faultEntry_stLinkValid (code : FaultCode) (info : Word32) (s : State) : (faultEntry code info s).stLinkValid = s.stLinkValid := rfl
@[simp] theorem faultEntry_shCh (code : FaultCode) (info : Word32) (s : State) : (faultEntry code info s).shCh = s.shCh := rfl
@[simp] theorem faultEntry_shLink (code : FaultCode) (info : Word32) (s : State) : (faultEntry code info s).shLink = s.shLink := rfl
@[simp] theorem faultEntry_batVoltage (code : FaultCode) (info : Word32) (s : State) : (faultEntry code info s).batVoltage = s.batVoltage := rfl
@[simp] theorem faultEntry_batCurrent (code : FaultCode) (info : Word32) (s : State) : (faultEntry code info s).batCurrent = s.batCurrent := rfl
@[simp] theorem faultEntry_batCapacity (code : FaultCode) (info : Word32) (s : State) : (faultEntry code info s).batCapacity = s.batCapacity := rfl
@[simp] theorem faultEntry_batRemaining (code : FaultCode) (info : Word32) (s : State) : (faultEntry code info s).batRemaining = s.batRemaining := rfl
@[simp] theorem faultEntry_gpsLat (code : FaultCode) (info : Word32) (s : State) : (faultEntry code info s).gpsLat = s.gpsLat := rfl
@[simp] theorem faultEntry_gpsLon (code : FaultCode) (info : Word32) (s : State) : (faultEntry code info s).gpsLon = s.gpsLon := rfl
@[simp] theorem faultEntry_gpsGspd (code : FaultCode) (info : Word32) (s : State) : (faultEntry code info s).gpsGspd = s.gpsGspd := rfl
@[simp] theorem faultEntry_gpsHeading (code : FaultCode) (info : Word32) (s : State) : (faultEntry code info s).gpsHeading = s.gpsHeading := rfl
@[simp] theorem faultEntry_gpsAlt (code : FaultCode) (info : Word32) (s : State) : (faultEntry code info s).gpsAlt = s.gpsAlt := rfl
@[simp] theorem faultEntry_gpsSats (code : FaultCode) (info : Word32) (s : State) : (faultEntry code info s).gpsSats = s.gpsSats := rfl
@[simp] theorem faultEntry_txp (code : FaultCode) (info : Word32) (s : State) : (faultEntry code info s).txp = s.txp := rfl
@[simp] theorem faultEntry_txBuf (code : FaultCode) (info : Word32) (s : State) : (faultEntry code info s).txBuf = s.txBuf := rfl
@[simp] theorem faultEntry_txLen (code : FaultCode) (info : Word32) (s : State) : (faultEntry code info s).txLen = s.txLen := rfl
@[simp] theorem faultEntry_txPos (code : FaultCode) (info : Word32) (s : State) : (faultEntry code info s).txPos = s.txPos := rfl
@[simp] theorem faultEntry_txBusy (code : FaultCode) (info : Word32) (s : State) : (faultEntry code info s).txBusy = s.txBusy := rfl
@[simp] theorem faultEntry_txResult (code : FaultCode) (info : Word32) (s : State) : (faultEntry code info s).txResult = s.txResult := rfl
@[simp] theorem faultEntry_inputs (code : FaultCode) (info : Word32) (s : State) : (faultEntry code info s).inputs = s.inputs := rfl
@[simp] theorem faultEntry_rdData (code : FaultCode) (info : Word32) (s : State) : (faultEntry code info s).rdData = s.rdData := rfl
@[simp] theorem faultEntry_wire (code : FaultCode) (info : Word32) (s : State) : (faultEntry code info s).wire = s.wire := rfl

/-! ### `toSeek` -/

@[simp] theorem toSeek_en (s : State) : (toSeek s).en = s.en := rfl
@[simp] theorem toSeek_faulted (s : State) : (toSeek s).faulted = s.faulted := rfl
@[simp] theorem toSeek_faultCode (s : State) : (toSeek s).faultCode = s.faultCode := rfl
@[simp] theorem toSeek_faultInfo (s : State) : (toSeek s).faultInfo = s.faultInfo := rfl
@[simp] theorem toSeek_crcAcc (s : State) : (toSeek s).crcAcc = s.crcAcc := rfl
@[simp] theorem toSeek_cch (s : State) : (toSeek s).cch = s.cch := rfl
@[simp] theorem toSeek_cpk (s : State) : (toSeek s).cpk = s.cpk := rfl
@[simp] theorem toSeek_rxState (s : State) : (toSeek s).rxState = .seekSync := rfl
@[simp] theorem toSeek_rxDest (s : State) : (toSeek s).rxDest = 0 := rfl
@[simp] theorem toSeek_rxLen (s : State) : (toSeek s).rxLen = 0 := rfl
@[simp] theorem toSeek_rxCnt (s : State) : (toSeek s).rxCnt = 0 := rfl
@[simp] theorem toSeek_rxBuf (s : State) : (toSeek s).rxBuf = s.rxBuf := rfl
@[simp] theorem toSeek_rxDead (s : State) : (toSeek s).rxDead = s.rxDead := rfl
@[simp] theorem toSeek_stCh (s : State) : (toSeek s).stCh = s.stCh := rfl
@[simp] theorem toSeek_stChValid (s : State) : (toSeek s).stChValid = s.stChValid := rfl
@[simp] theorem toSeek_stLink (s : State) : (toSeek s).stLink = s.stLink := rfl
@[simp] theorem toSeek_stLinkValid (s : State) : (toSeek s).stLinkValid = s.stLinkValid := rfl
@[simp] theorem toSeek_shCh (s : State) : (toSeek s).shCh = s.shCh := rfl
@[simp] theorem toSeek_shLink (s : State) : (toSeek s).shLink = s.shLink := rfl
@[simp] theorem toSeek_batVoltage (s : State) : (toSeek s).batVoltage = s.batVoltage := rfl
@[simp] theorem toSeek_batCurrent (s : State) : (toSeek s).batCurrent = s.batCurrent := rfl
@[simp] theorem toSeek_batCapacity (s : State) : (toSeek s).batCapacity = s.batCapacity := rfl
@[simp] theorem toSeek_batRemaining (s : State) : (toSeek s).batRemaining = s.batRemaining := rfl
@[simp] theorem toSeek_gpsLat (s : State) : (toSeek s).gpsLat = s.gpsLat := rfl
@[simp] theorem toSeek_gpsLon (s : State) : (toSeek s).gpsLon = s.gpsLon := rfl
@[simp] theorem toSeek_gpsGspd (s : State) : (toSeek s).gpsGspd = s.gpsGspd := rfl
@[simp] theorem toSeek_gpsHeading (s : State) : (toSeek s).gpsHeading = s.gpsHeading := rfl
@[simp] theorem toSeek_gpsAlt (s : State) : (toSeek s).gpsAlt = s.gpsAlt := rfl
@[simp] theorem toSeek_gpsSats (s : State) : (toSeek s).gpsSats = s.gpsSats := rfl
@[simp] theorem toSeek_txp (s : State) : (toSeek s).txp = s.txp := rfl
@[simp] theorem toSeek_txBuf (s : State) : (toSeek s).txBuf = s.txBuf := rfl
@[simp] theorem toSeek_txLen (s : State) : (toSeek s).txLen = s.txLen := rfl
@[simp] theorem toSeek_txPos (s : State) : (toSeek s).txPos = s.txPos := rfl
@[simp] theorem toSeek_txBusy (s : State) : (toSeek s).txBusy = s.txBusy := rfl
@[simp] theorem toSeek_txResult (s : State) : (toSeek s).txResult = s.txResult := rfl
@[simp] theorem toSeek_inputs (s : State) : (toSeek s).inputs = s.inputs := rfl
@[simp] theorem toSeek_rdData (s : State) : (toSeek s).rdData = s.rdData := rfl
@[simp] theorem toSeek_wire (s : State) : (toSeek s).wire = s.wire := rfl

/-! ### `startTx` -/

@[simp] theorem startTx_en (frame : List Byte) (s : State) : (startTx frame s).en = s.en := rfl
@[simp] theorem startTx_faulted (frame : List Byte) (s : State) : (startTx frame s).faulted = s.faulted := rfl
@[simp] theorem startTx_faultCode (frame : List Byte) (s : State) : (startTx frame s).faultCode = s.faultCode := rfl
@[simp] theorem startTx_faultInfo (frame : List Byte) (s : State) : (startTx frame s).faultInfo = s.faultInfo := rfl
@[simp] theorem startTx_crcAcc (frame : List Byte) (s : State) : (startTx frame s).crcAcc = s.crcAcc := rfl
@[simp] theorem startTx_cch (frame : List Byte) (s : State) : (startTx frame s).cch = s.cch := rfl
@[simp] theorem startTx_cpk (frame : List Byte) (s : State) : (startTx frame s).cpk = s.cpk := rfl
@[simp] theorem startTx_rxState (frame : List Byte) (s : State) : (startTx frame s).rxState = s.rxState := rfl
@[simp] theorem startTx_rxDest (frame : List Byte) (s : State) : (startTx frame s).rxDest = s.rxDest := rfl
@[simp] theorem startTx_rxLen (frame : List Byte) (s : State) : (startTx frame s).rxLen = s.rxLen := rfl
@[simp] theorem startTx_rxCnt (frame : List Byte) (s : State) : (startTx frame s).rxCnt = s.rxCnt := rfl
@[simp] theorem startTx_rxBuf (frame : List Byte) (s : State) : (startTx frame s).rxBuf = s.rxBuf := rfl
@[simp] theorem startTx_rxDead (frame : List Byte) (s : State) : (startTx frame s).rxDead = s.rxDead := rfl
@[simp] theorem startTx_stCh (frame : List Byte) (s : State) : (startTx frame s).stCh = s.stCh := rfl
@[simp] theorem startTx_stChValid (frame : List Byte) (s : State) : (startTx frame s).stChValid = s.stChValid := rfl
@[simp] theorem startTx_stLink (frame : List Byte) (s : State) : (startTx frame s).stLink = s.stLink := rfl
@[simp] theorem startTx_stLinkValid (frame : List Byte) (s : State) : (startTx frame s).stLinkValid = s.stLinkValid := rfl
@[simp] theorem startTx_shCh (frame : List Byte) (s : State) : (startTx frame s).shCh = s.shCh := rfl
@[simp] theorem startTx_shLink (frame : List Byte) (s : State) : (startTx frame s).shLink = s.shLink := rfl
@[simp] theorem startTx_batVoltage (frame : List Byte) (s : State) : (startTx frame s).batVoltage = s.batVoltage := rfl
@[simp] theorem startTx_batCurrent (frame : List Byte) (s : State) : (startTx frame s).batCurrent = s.batCurrent := rfl
@[simp] theorem startTx_batCapacity (frame : List Byte) (s : State) : (startTx frame s).batCapacity = s.batCapacity := rfl
@[simp] theorem startTx_batRemaining (frame : List Byte) (s : State) : (startTx frame s).batRemaining = s.batRemaining := rfl
@[simp] theorem startTx_gpsLat (frame : List Byte) (s : State) : (startTx frame s).gpsLat = s.gpsLat := rfl
@[simp] theorem startTx_gpsLon (frame : List Byte) (s : State) : (startTx frame s).gpsLon = s.gpsLon := rfl
@[simp] theorem startTx_gpsGspd (frame : List Byte) (s : State) : (startTx frame s).gpsGspd = s.gpsGspd := rfl
@[simp] theorem startTx_gpsHeading (frame : List Byte) (s : State) : (startTx frame s).gpsHeading = s.gpsHeading := rfl
@[simp] theorem startTx_gpsAlt (frame : List Byte) (s : State) : (startTx frame s).gpsAlt = s.gpsAlt := rfl
@[simp] theorem startTx_gpsSats (frame : List Byte) (s : State) : (startTx frame s).gpsSats = s.gpsSats := rfl
@[simp] theorem startTx_txp (frame : List Byte) (s : State) : (startTx frame s).txp = s.txp := rfl
@[simp] theorem startTx_txBuf (frame : List Byte) (s : State) : (startTx frame s).txBuf = fillBytes 64 frame := rfl
@[simp] theorem startTx_txLen (frame : List Byte) (s : State) : (startTx frame s).txLen = BitVec.ofNat 7 frame.length := rfl
@[simp] theorem startTx_txPos (frame : List Byte) (s : State) : (startTx frame s).txPos = 0 := rfl
@[simp] theorem startTx_txBusy (frame : List Byte) (s : State) : (startTx frame s).txBusy = true := rfl
@[simp] theorem startTx_txResult (frame : List Byte) (s : State) : (startTx frame s).txResult = .none := rfl
@[simp] theorem startTx_inputs (frame : List Byte) (s : State) : (startTx frame s).inputs = s.inputs := rfl
@[simp] theorem startTx_rdData (frame : List Byte) (s : State) : (startTx frame s).rdData = s.rdData := rfl
@[simp] theorem startTx_wire (frame : List Byte) (s : State) : (startTx frame s).wire = s.wire := rfl

/-! ### `deliver` -/

@[simp] theorem deliver_en (inp : Input) (s : State) : (deliver inp s).en = s.en := rfl
@[simp] theorem deliver_faulted (inp : Input) (s : State) : (deliver inp s).faulted = s.faulted := rfl
@[simp] theorem deliver_faultCode (inp : Input) (s : State) : (deliver inp s).faultCode = s.faultCode := rfl
@[simp] theorem deliver_faultInfo (inp : Input) (s : State) : (deliver inp s).faultInfo = s.faultInfo := rfl
@[simp] theorem deliver_crcAcc (inp : Input) (s : State) : (deliver inp s).crcAcc = s.crcAcc := rfl
@[simp] theorem deliver_cch (inp : Input) (s : State) : (deliver inp s).cch = s.cch := rfl
@[simp] theorem deliver_cpk (inp : Input) (s : State) : (deliver inp s).cpk = s.cpk := rfl
@[simp] theorem deliver_rxState (inp : Input) (s : State) : (deliver inp s).rxState = s.rxState := rfl
@[simp] theorem deliver_rxDest (inp : Input) (s : State) : (deliver inp s).rxDest = s.rxDest := rfl
@[simp] theorem deliver_rxLen (inp : Input) (s : State) : (deliver inp s).rxLen = s.rxLen := rfl
@[simp] theorem deliver_rxCnt (inp : Input) (s : State) : (deliver inp s).rxCnt = s.rxCnt := rfl
@[simp] theorem deliver_rxBuf (inp : Input) (s : State) : (deliver inp s).rxBuf = s.rxBuf := rfl
@[simp] theorem deliver_rxDead (inp : Input) (s : State) : (deliver inp s).rxDead = s.rxDead := rfl
@[simp] theorem deliver_stCh (inp : Input) (s : State) : (deliver inp s).stCh = s.stCh := rfl
@[simp] theorem deliver_stChValid (inp : Input) (s : State) : (deliver inp s).stChValid = s.stChValid := rfl
@[simp] theorem deliver_stLink (inp : Input) (s : State) : (deliver inp s).stLink = s.stLink := rfl
@[simp] theorem deliver_stLinkValid (inp : Input) (s : State) : (deliver inp s).stLinkValid = s.stLinkValid := rfl
@[simp] theorem deliver_shCh (inp : Input) (s : State) : (deliver inp s).shCh = s.shCh := rfl
@[simp] theorem deliver_shLink (inp : Input) (s : State) : (deliver inp s).shLink = s.shLink := rfl
@[simp] theorem deliver_batVoltage (inp : Input) (s : State) : (deliver inp s).batVoltage = s.batVoltage := rfl
@[simp] theorem deliver_batCurrent (inp : Input) (s : State) : (deliver inp s).batCurrent = s.batCurrent := rfl
@[simp] theorem deliver_batCapacity (inp : Input) (s : State) : (deliver inp s).batCapacity = s.batCapacity := rfl
@[simp] theorem deliver_batRemaining (inp : Input) (s : State) : (deliver inp s).batRemaining = s.batRemaining := rfl
@[simp] theorem deliver_gpsLat (inp : Input) (s : State) : (deliver inp s).gpsLat = s.gpsLat := rfl
@[simp] theorem deliver_gpsLon (inp : Input) (s : State) : (deliver inp s).gpsLon = s.gpsLon := rfl
@[simp] theorem deliver_gpsGspd (inp : Input) (s : State) : (deliver inp s).gpsGspd = s.gpsGspd := rfl
@[simp] theorem deliver_gpsHeading (inp : Input) (s : State) : (deliver inp s).gpsHeading = s.gpsHeading := rfl
@[simp] theorem deliver_gpsAlt (inp : Input) (s : State) : (deliver inp s).gpsAlt = s.gpsAlt := rfl
@[simp] theorem deliver_gpsSats (inp : Input) (s : State) : (deliver inp s).gpsSats = s.gpsSats := rfl
@[simp] theorem deliver_txp (inp : Input) (s : State) : (deliver inp s).txp = s.txp := rfl
@[simp] theorem deliver_txBuf (inp : Input) (s : State) : (deliver inp s).txBuf = s.txBuf := rfl
@[simp] theorem deliver_txLen (inp : Input) (s : State) : (deliver inp s).txLen = s.txLen := rfl
@[simp] theorem deliver_txPos (inp : Input) (s : State) : (deliver inp s).txPos = s.txPos := rfl
@[simp] theorem deliver_txBusy (inp : Input) (s : State) : (deliver inp s).txBusy = s.txBusy := rfl
@[simp] theorem deliver_txResult (inp : Input) (s : State) : (deliver inp s).txResult = s.txResult := rfl
@[simp] theorem deliver_inputs (inp : Input) (s : State) : (deliver inp s).inputs = inp :: s.inputs := rfl
@[simp] theorem deliver_rdData (inp : Input) (s : State) : (deliver inp s).rdData = s.rdData := rfl
@[simp] theorem deliver_wire (inp : Input) (s : State) : (deliver inp s).wire = s.wire := rfl

/-! ### `resetBlock` -/

@[simp] theorem resetBlock_en (s : State) : (resetBlock s).en = State.reset.en := rfl
@[simp] theorem resetBlock_faulted (s : State) : (resetBlock s).faulted = State.reset.faulted := rfl
@[simp] theorem resetBlock_faultCode (s : State) : (resetBlock s).faultCode = State.reset.faultCode := rfl
@[simp] theorem resetBlock_faultInfo (s : State) : (resetBlock s).faultInfo = State.reset.faultInfo := rfl
@[simp] theorem resetBlock_crcAcc (s : State) : (resetBlock s).crcAcc = State.reset.crcAcc := rfl
@[simp] theorem resetBlock_cch (s : State) : (resetBlock s).cch = State.reset.cch := rfl
@[simp] theorem resetBlock_cpk (s : State) : (resetBlock s).cpk = State.reset.cpk := rfl
@[simp] theorem resetBlock_rxState (s : State) : (resetBlock s).rxState = State.reset.rxState := rfl
@[simp] theorem resetBlock_rxDest (s : State) : (resetBlock s).rxDest = State.reset.rxDest := rfl
@[simp] theorem resetBlock_rxLen (s : State) : (resetBlock s).rxLen = State.reset.rxLen := rfl
@[simp] theorem resetBlock_rxCnt (s : State) : (resetBlock s).rxCnt = State.reset.rxCnt := rfl
@[simp] theorem resetBlock_rxBuf (s : State) : (resetBlock s).rxBuf = State.reset.rxBuf := rfl
@[simp] theorem resetBlock_rxDead (s : State) : (resetBlock s).rxDead = State.reset.rxDead := rfl
@[simp] theorem resetBlock_stCh (s : State) : (resetBlock s).stCh = State.reset.stCh := rfl
@[simp] theorem resetBlock_stChValid (s : State) : (resetBlock s).stChValid = State.reset.stChValid := rfl
@[simp] theorem resetBlock_stLink (s : State) : (resetBlock s).stLink = State.reset.stLink := rfl
@[simp] theorem resetBlock_stLinkValid (s : State) : (resetBlock s).stLinkValid = State.reset.stLinkValid := rfl
@[simp] theorem resetBlock_shCh (s : State) : (resetBlock s).shCh = State.reset.shCh := rfl
@[simp] theorem resetBlock_shLink (s : State) : (resetBlock s).shLink = State.reset.shLink := rfl
@[simp] theorem resetBlock_batVoltage (s : State) : (resetBlock s).batVoltage = State.reset.batVoltage := rfl
@[simp] theorem resetBlock_batCurrent (s : State) : (resetBlock s).batCurrent = State.reset.batCurrent := rfl
@[simp] theorem resetBlock_batCapacity (s : State) : (resetBlock s).batCapacity = State.reset.batCapacity := rfl
@[simp] theorem resetBlock_batRemaining (s : State) : (resetBlock s).batRemaining = State.reset.batRemaining := rfl
@[simp] theorem resetBlock_gpsLat (s : State) : (resetBlock s).gpsLat = State.reset.gpsLat := rfl
@[simp] theorem resetBlock_gpsLon (s : State) : (resetBlock s).gpsLon = State.reset.gpsLon := rfl
@[simp] theorem resetBlock_gpsGspd (s : State) : (resetBlock s).gpsGspd = State.reset.gpsGspd := rfl
@[simp] theorem resetBlock_gpsHeading (s : State) : (resetBlock s).gpsHeading = State.reset.gpsHeading := rfl
@[simp] theorem resetBlock_gpsAlt (s : State) : (resetBlock s).gpsAlt = State.reset.gpsAlt := rfl
@[simp] theorem resetBlock_gpsSats (s : State) : (resetBlock s).gpsSats = State.reset.gpsSats := rfl
@[simp] theorem resetBlock_txp (s : State) : (resetBlock s).txp = State.reset.txp := rfl
@[simp] theorem resetBlock_txBuf (s : State) : (resetBlock s).txBuf = State.reset.txBuf := rfl
@[simp] theorem resetBlock_txLen (s : State) : (resetBlock s).txLen = State.reset.txLen := rfl
@[simp] theorem resetBlock_txPos (s : State) : (resetBlock s).txPos = State.reset.txPos := rfl
@[simp] theorem resetBlock_txBusy (s : State) : (resetBlock s).txBusy = State.reset.txBusy := rfl
@[simp] theorem resetBlock_txResult (s : State) : (resetBlock s).txResult = State.reset.txResult := rfl
@[simp] theorem resetBlock_inputs (s : State) : (resetBlock s).inputs = s.inputs := rfl
@[simp] theorem resetBlock_rdData (s : State) : (resetBlock s).rdData = s.rdData := rfl
@[simp] theorem resetBlock_wire (s : State) : (resetBlock s).wire = s.wire := rfl

end Sys2Proof.Machine
end

