-- ==== Sys2Proof/Laws/Ops.lean ====
section
/-! SUPPORT. What each shared operation can do, said once: if it answers a next state, then which. -/

namespace Sys2Proof.Machine

@[simp] theorem raise_eq (code : FaultCode) (info : Word32) (s : State) :
    raise code info s = .next (faultEntry code info s) := rfl

@[simp] theorem returnWord_eq (v : Word32) (s : State) : returnWord v s = .next { s with rdData := some v } := rfl

/-- A filled buffer lists the bytes, then zeros. -/
@[simp] theorem fillBytes_toList (n : Nat) (bytes : List Byte) :
    (fillBytes n bytes).toList = (bytes ++ List.replicate n 0).take n := rfl

/-- A byte of a filled buffer. -/
theorem fillBytes_getElem (n : Nat) (bytes : List Byte) (k : Nat) (h : k < n) :
    (fillBytes n bytes)[k] = bytes.getD k 0 := by
  have h' : (fillBytes n bytes)[k] = ((bytes ++ List.replicate n 0).take n)[k]'(by simp; omega) := rfl
  rw [h', List.getElem_take, List.getElem_append]
  split
  · next hk => simp [hk]
  · next hk => simp [List.getElem?_eq_none (Nat.le_of_not_lt hk)]

/-- Filling a buffer of the sequence's own length gives back the sequence. -/
theorem fillBytes_toList_self {n : Nat} {bytes : List Byte} (h : bytes.length = n) :
    (fillBytes n bytes).toList = bytes := by
  rw [fillBytes_toList, ← h, List.take_left]

@[simp] theorem tabulate_toList {α : Type} (n : Nat) (f : Nat → α) : (tabulate n f).toList = (List.range n).map f := rfl

/-- An element of a tabulated sequence. -/
@[simp] theorem tabulate_getElem {α : Type} (n : Nat) (f : Nat → α) (k : Nat) (h : k < n) :
    (tabulate n f)[k] = f k := by
  have h' : (tabulate n f)[k] = ((List.range n).map f)[k]'(by simpa using h) := rfl
  rw [h', List.getElem_map, List.getElem_range]

theorem unlessFrozen_of_live {s : State} (h : s.faulted = false) (k : Result) : unlessFrozen s k = k := by
  simp [unlessFrozen, h]

theorem unlessFrozen_of_frozen {s : State} (h : s.faulted = true) (k : Result) : unlessFrozen s k = .next s := by
  simp [unlessFrozen, h]

/-- An operation under `unlessFrozen` leaves a frozen block as it is and otherwise does what it does. -/
theorem unlessFrozen_cases {s t : State} {k : Result} (h : unlessFrozen s k = .next t) :
    (s.faulted = true ∧ t = s) ∨ (s.faulted = false ∧ k = .next t) := by
  unfold unlessFrozen at h
  split at h
  · next hf => simp only [Host.Outcome.next.injEq] at h; exact .inl ⟨hf, h.symm⟩
  · next hf => exact .inr ⟨by simpa using hf, h⟩

theorem rxChecked_of_receiving {s : State} (hl : s.faulted = false) (he : s.en = true) (hd : s.rxDead = false)
    (w : BitVec 10) (k : Result) : rxChecked w s k = k := by
  simp [rxChecked, unlessFrozen, hl, he, hd]

/-- An RX port operation: nothing on a frozen block, one of its two faults, or its own effect on a usable port. -/
theorem rxChecked_cases {s t : State} {w : BitVec 10} {k : Result} (h : rxChecked w s k = .next t) :
    (s.faulted = true ∧ t = s) ∨
    (s.faulted = false ∧ ∃ code info, code ≠ .none ∧ t = faultEntry code info s) ∨
    (s.faulted = false ∧ s.en = true ∧ s.rxDead = false ∧ k = .next t) := by
  rcases unlessFrozen_cases h with h | ⟨hl, h⟩
  · exact .inl h
  · split at h
    · simp only [raise_eq, Host.Outcome.next.injEq] at h
      exact .inr (.inl ⟨hl, _, _, by decide, h.symm⟩)
    · next he =>
      split at h
      · simp only [raise_eq, Host.Outcome.next.injEq] at h
        exact .inr (.inl ⟨hl, _, _, by decide, h.symm⟩)
      · next hd => exact .inr (.inr ⟨hl, by simpa using he, by simpa using hd, h⟩)

theorem sendFrame_of_maySend {s : State} (hl : s.faulted = false) (he : s.en = true) (hb : s.txBusy = false)
    (w : Word32) {d ty : Byte} {n : Nat} (ha : sendArgsOk d ty n = true) (p : List Byte) :
    sendFrame w d ty n p s = .next (startTx (buildFrame d ty p) s) := by
  simp [sendFrame, unlessFrozen, hl, he, hb, ha]

/-- A SEND: nothing on a frozen block, one of its three faults, or the built frame's transmission started. -/
theorem sendFrame_cases {s t : State} {w : Word32} {d ty : Byte} {n : Nat} {p : List Byte}
    (h : sendFrame w d ty n p s = .next t) :
    (s.faulted = true ∧ t = s) ∨
    (s.faulted = false ∧ ∃ code info, code ≠ .none ∧ t = faultEntry code info s) ∨
    (s.faulted = false ∧ s.en = true ∧ s.txBusy = false ∧ sendArgsOk d ty n = true ∧
      t = startTx (buildFrame d ty p) s) := by
  rcases unlessFrozen_cases h with h | ⟨hl, h⟩
  · exact .inl h
  · split at h
    · simp only [raise_eq, Host.Outcome.next.injEq] at h
      exact .inr (.inl ⟨hl, _, _, by decide, h.symm⟩)
    · next he =>
      split at h
      · simp only [raise_eq, Host.Outcome.next.injEq] at h
        exact .inr (.inl ⟨hl, _, _, by decide, h.symm⟩)
      · next hb =>
        split at h
        · simp only [raise_eq, Host.Outcome.next.injEq] at h
          exact .inr (.inl ⟨hl, _, _, by decide, h.symm⟩)
        · next ha =>
          simp only [Host.Outcome.next.injEq] at h
          exact .inr (.inr ⟨hl, by simpa using he, by simpa using hb, by simpa using ha, h.symm⟩)

/-- A sink word: its own effect, on a live block with a send in flight. -/
theorem whileSending_cases {s t : State} {k : Result} (h : whileSending s k = .next t) :
    s.faulted = false ∧ s.txBusy = true ∧ k = .next t := by
  unfold whileSending at h
  split at h
  · next hc => exact ⟨hc.1, hc.2, h⟩
  · simp at h

theorem whileSending_of_sending {s : State} (hl : s.faulted = false) (hb : s.txBusy = true) (k : Result) :
    whileSending s k = k := by
  simp [whileSending, hl, hb]

/-- What storing a body byte can do: within `rx_buf`, the byte is stored and a complete body is validated. -/
theorem rxBody_cases {s t : State} {d : Byte} (h : rxBody d s = .next t) :
    s.rxCnt.toNat < 62 ∧ t = rxComplete (rxStore d s) := by
  unfold rxBody at h
  split at h
  · next hc => simp only [Host.Outcome.next.injEq] at h; exact ⟨hc, h.symm⟩
  · simp at h

/-- The dispatch replaces at most one snapshot, whole, and sets its presence flag. -/
theorem dispatch_cases (ty : Byte) (p : List Byte) (s : State) :
    dispatch ty p s = s ∨
    (∃ v, dispatch ty p s = { s with stCh := v, stChValid := true }) ∨
    (∃ v, dispatch ty p s = { s with stLink := v, stLinkValid := true }) := by
  unfold dispatch dispatchChannels dispatchLink
  split_ifs
  · exact .inr (.inl ⟨_, rfl⟩)
  · exact .inl rfl
  · exact .inr (.inr ⟨_, rfl⟩)
  · exact .inl rfl
  · exact .inl rfl

/-- Validation replaces at most one snapshot, whole, and sets its presence flag. -/
theorem rxValidate_cases (s : State) :
    rxValidate s = s ∨
    (∃ v, rxValidate s = { s with stCh := v, stChValid := true }) ∨
    (∃ v, rxValidate s = { s with stLink := v, stLinkValid := true }) := by
  unfold rxValidate validateBody
  split_ifs
  · exact dispatch_cases _ _ _
  · exact .inl rfl

/-- A register write changes nothing but input, codec and payload registers. -/
theorem writeReg_frame (r : Reg) (v : Word32) (s : State) :
    writeReg r v s = { s with
      cch := (writeReg r v s).cch, cpk := (writeReg r v s).cpk,
      batVoltage := (writeReg r v s).batVoltage, batCurrent := (writeReg r v s).batCurrent,
      batCapacity := (writeReg r v s).batCapacity, batRemaining := (writeReg r v s).batRemaining,
      gpsLat := (writeReg r v s).gpsLat, gpsLon := (writeReg r v s).gpsLon, gpsGspd := (writeReg r v s).gpsGspd,
      gpsHeading := (writeReg r v s).gpsHeading, gpsAlt := (writeReg r v s).gpsAlt,
      gpsSats := (writeReg r v s).gpsSats, txp := (writeReg r v s).txp } := by
  cases r <;> rfl

theorem executeCommand_ok {w : Word32} {i : Instr} (h : decodeCmd w = .ok i) (s : State) :
    executeCommand w s = runCommand w i s := by
  simp [executeCommand, h]

theorem executeCommand_error {w : Word32} {e : DecodeError} (h : decodeCmd w = .error e) (s : State) :
    executeCommand w s = .next (faultEntry .illegalCmd w s) := by
  simp [executeCommand, h]

theorem noArgs_ok {w : BitVec 32} {i j : Instr} (h : noArgs w i = .ok j) : i = j := by
  unfold noArgs at h
  split at h
  · simpa using h
  · simp at h

theorem oneArg_ok {w : BitVec 32} {f : Byte → Instr} {j : Instr} (h : oneArg w f = .ok j) : f (cmdA w) = j := by
  unfold oneArg at h
  split at h
  · simpa using h
  · simp at h

/-- A CMD word decodes to a command only. -/
theorem decodeCmd_isCommand {w : Word32} {i : Instr} (h : decodeCmd w = .ok i) :
    i = .init ∨ i = .crcClear ∨ (∃ a, i = .crcFeed a) ∨ i = .chUnpack ∨ i = .chPack ∨ i = .latchCh ∨
    i = .latchLink ∨ (∃ d, i = .sendBattery d) ∨ (∃ d, i = .sendGps d) ∨ (∃ d ty n, i = .sendRaw d ty n) := by
  unfold decodeCmd at h
  split at h; · simp [← noArgs_ok h]
  split at h; · simp [← noArgs_ok h]
  split at h; · simp [← oneArg_ok h]
  split at h; · simp [← noArgs_ok h]
  split at h; · simp [← noArgs_ok h]
  split at h; · simp [← noArgs_ok h]
  split at h; · simp [← noArgs_ok h]
  split at h; · simp [← oneArg_ok h]
  split at h; · simp [← oneArg_ok h]
  split at h
  · simp only [Except.ok.injEq] at h
    simp [← h]
  · simp at h

/-- A step with a delivered word that is an instruction performs it. -/
theorem takeInput_cons (s : State) (inp : Input) (rest : List Input) (h : s.inputs = inp :: rest) :
    takeInput s = some (inp, { s with inputs := rest }) := by
  simp [takeInput, h]

end Sys2Proof.Machine
end

