-- ==== Sys2Proof/Laws/Effect.lean ====
section
/-! SUPPORT. Everything an instruction can do when `exec` answers a next state, said once for all seventeen
(`exec_effect`), and everything a step can do (`step_cases`). Invariants and whole-machine rules follow by cases. -/

namespace Sys2Proof.Machine

/-- `Effect s i t`: performing `i` at `s` may answer `t`. -/
inductive Effect (s : State) : Instr → State → Prop where
  /-- Nothing: a frozen block, a transient error, a byte discarded. -/
  | same (i : Instr) : Effect s i s
  /-- A fault entry on a live block. -/
  | fault (i : Instr) (code : FaultCode) (info : Word32) (hl : s.faulted = false) (hc : code ≠ .none) :
      Effect s i (faultEntry code info s)
  /-- INIT. -/
  | init (hl : s.faulted = false) (he : s.en = false) : Effect s .init { s with en := true }
  /-- CRC_CLEAR. -/
  | crcClear (hl : s.faulted = false) : Effect s .crcClear { s with crcAcc := Config.crcInit }
  /-- CRC_FEED. -/
  | crcFeed (a : Byte) (hl : s.faulted = false) : Effect s (.crcFeed a) { s with crcAcc := crcStep s.crcAcc a }
  /-- CH_UNPACK. -/
  | chUnpack (hl : s.faulted = false) : Effect s .chUnpack { s with cch := unpack22 s.cpk }
  /-- CH_PACK. -/
  | chPack (hl : s.faulted = false) : Effect s .chPack { s with cpk := pack16 s.cch }
  /-- LATCH_CH. -/
  | latchCh (hl : s.faulted = false) : Effect s .latchCh { s with shCh := s.stCh }
  /-- LATCH_LINK. -/
  | latchLink (hl : s.faulted = false) : Effect s .latchLink { s with shLink := s.stLink }
  /-- SEND_BATTERY. -/
  | sendBattery (d : Byte) (hl : s.faulted = false) (he : s.en = true) (hb : s.txBusy = false)
      (ha : sendArgsOk d Config.typeBattery 8 = true) :
      Effect s (.sendBattery d) (startTx (buildFrame d Config.typeBattery (batteryPayload s)) s)
  /-- SEND_GPS. -/
  | sendGps (d : Byte) (hl : s.faulted = false) (he : s.en = true) (hb : s.txBusy = false)
      (ha : sendArgsOk d Config.typeGps 15 = true) :
      Effect s (.sendGps d) (startTx (buildFrame d Config.typeGps (gpsPayload s)) s)
  /-- SEND_RAW. -/
  | sendRaw (d ty : Byte) (n : Nat) (hl : s.faulted = false) (he : s.en = true) (hb : s.txBusy = false)
      (ha : sendArgsOk d ty n = true) :
      Effect s (.sendRaw d ty n) (startTx (buildFrame d ty (s.txp.toList.take n)) s)
  /-- RX_BYTE in SEEK_SYNC. -/
  | rxSeek (d : Byte) (hl : s.faulted = false) (he : s.en = true) (hd : s.rxDead = false)
      (hs : s.rxState = .seekSync) : Effect s (.rxByte d) (rxSeek d s)
  /-- RX_BYTE in READ_LEN. -/
  | rxReadLen (d : Byte) (hl : s.faulted = false) (he : s.en = true) (hd : s.rxDead = false)
      (hs : s.rxState = .readLen) : Effect s (.rxByte d) (rxReadLen d s)
  /-- RX_BYTE in READ_BODY. -/
  | rxBody (d : Byte) (hl : s.faulted = false) (he : s.en = true) (hd : s.rxDead = false)
      (hs : s.rxState = .readBody) (hc : s.rxCnt.toNat < 62) : Effect s (.rxByte d) (rxComplete (rxStore d s))
  /-- RX_ERR_FATAL. -/
  | rxErrFatal (hl : s.faulted = false) (he : s.en = true) (hd : s.rxDead = false) :
      Effect s .rxErrFatal { s with rxDead := true }
  /-- SINK_TAKE. -/
  | sinkTake (n : Nat) (hl : s.faulted = false) (hb : s.txBusy = true) (hn : s.txPos.toNat + n ≤ s.txLen.toNat) :
      Effect s (.sinkTake n)
        (endSend { s with txPos := BitVec.ofNat 7 (s.txPos.toNat + n), wire := s.wire ++ offered n s })
  /-- SINK_FAIL. -/
  | sinkFail (hl : s.faulted = false) (hb : s.txBusy = true) :
      Effect s .sinkFail { s with txBusy := false, txResult := .fail }
  /-- RD returning a word. -/
  | rd (off : Offset) (ignored v : Word32) : Effect s (.rd off ignored) { s with rdData := some v }
  /-- WR to a RW register. -/
  | wrData (off : Offset) (v : Word32) (r : Reg) (hl : s.faulted = false) (hr : regAt off = some r)
      (hw : regAccess r = .rw) (hf : fitsReg r v = true) : Effect s (.wr off v) (writeReg r v s)
  /-- WR to CMD of a command's word: what the command does. -/
  | wrCmd (w : Word32) (i : Instr) (t : State) (hl : s.faulted = false) (hd : decodeCmd w = .ok i)
      (he : Effect s i t) : Effect s (.wr 0x000 w) t

variable {s t : State}

theorem next_inj {a b : State} (h : (Host.Outcome.next a : Result) = .next b) : b = a := by
  simpa [eq_comm] using h

theorem execInit_effect (h : execInit s = .next t) : Effect s .init t := by
  rcases unlessFrozen_cases h with ⟨_, rfl⟩ | ⟨hl, h⟩
  · exact .same _
  · split at h
    · rw [next_inj h]; exact .fault _ _ _ hl (by decide)
    · next he => rw [next_inj h]; exact .init hl (by simpa using he)

theorem execCrcClear_effect (h : execCrcClear s = .next t) : Effect s .crcClear t := by
  rcases unlessFrozen_cases h with ⟨_, rfl⟩ | ⟨hl, h⟩
  · exact .same _
  · rw [next_inj h]; exact .crcClear hl

theorem execCrcFeed_effect {a : Byte} (h : execCrcFeed a s = .next t) : Effect s (.crcFeed a) t := by
  rcases unlessFrozen_cases h with ⟨_, rfl⟩ | ⟨hl, h⟩
  · exact .same _
  · rw [next_inj h]; exact .crcFeed a hl

theorem execChUnpack_effect (h : execChUnpack s = .next t) : Effect s .chUnpack t := by
  rcases unlessFrozen_cases h with ⟨_, rfl⟩ | ⟨hl, h⟩
  · exact .same _
  · rw [next_inj h]; exact .chUnpack hl

theorem execChPack_effect (h : execChPack s = .next t) : Effect s .chPack t := by
  rcases unlessFrozen_cases h with ⟨_, rfl⟩ | ⟨hl, h⟩
  · exact .same _
  · rw [next_inj h]; exact .chPack hl

theorem execLatchCh_effect (h : execLatchCh s = .next t) : Effect s .latchCh t := by
  rcases unlessFrozen_cases h with ⟨_, rfl⟩ | ⟨hl, h⟩
  · exact .same _
  · rw [next_inj h]; exact .latchCh hl

theorem execLatchLink_effect (h : execLatchLink s = .next t) : Effect s .latchLink t := by
  rcases unlessFrozen_cases h with ⟨_, rfl⟩ | ⟨hl, h⟩
  · exact .same _
  · rw [next_inj h]; exact .latchLink hl

theorem execSendBattery_effect {d : Byte} (h : execSendBattery d s = .next t) : Effect s (.sendBattery d) t := by
  rcases sendFrame_cases h with ⟨_, rfl⟩ | ⟨hl, c, i, hc, rfl⟩ | ⟨hl, he, hb, ha, rfl⟩
  · exact .same _
  · exact .fault _ _ _ hl hc
  · exact .sendBattery d hl he hb ha

theorem execSendGps_effect {d : Byte} (h : execSendGps d s = .next t) : Effect s (.sendGps d) t := by
  rcases sendFrame_cases h with ⟨_, rfl⟩ | ⟨hl, c, i, hc, rfl⟩ | ⟨hl, he, hb, ha, rfl⟩
  · exact .same _
  · exact .fault _ _ _ hl hc
  · exact .sendGps d hl he hb ha

theorem execSendRaw_effect {d ty : Byte} {n : Nat} (h : execSendRaw d ty n s = .next t) :
    Effect s (.sendRaw d ty n) t := by
  rcases sendFrame_cases h with ⟨_, rfl⟩ | ⟨hl, c, i, hc, rfl⟩ | ⟨hl, he, hb, ha, rfl⟩
  · exact .same _
  · exact .fault _ _ _ hl hc
  · exact .sendRaw d ty n hl he hb ha

theorem execRxByte_effect {d : Byte} (h : execRxByte d s = .next t) : Effect s (.rxByte d) t := by
  rcases rxChecked_cases h with ⟨_, rfl⟩ | ⟨hl, c, i, hc, rfl⟩ | ⟨hl, he, hd, h⟩
  · exact .same _
  · exact .fault _ _ _ hl hc
  · split at h
    · next hs => rw [next_inj h]; exact .rxSeek d hl he hd hs
    · next hs => rw [next_inj h]; exact .rxReadLen d hl he hd hs
    · next hs =>
      obtain ⟨hc, rfl⟩ := rxBody_cases h
      exact .rxBody d hl he hd hs hc
    · simp at h

theorem execRxErrTransient_effect (h : execRxErrTransient s = .next t) : Effect s .rxErrTransient t := by
  rcases rxChecked_cases h with ⟨_, rfl⟩ | ⟨hl, c, i, hc, rfl⟩ | ⟨hl, he, hd, h⟩
  · exact .same _
  · exact .fault _ _ _ hl hc
  · rw [next_inj h]; exact .same _

theorem execRxErrFatal_effect (h : execRxErrFatal s = .next t) : Effect s .rxErrFatal t := by
  rcases rxChecked_cases h with ⟨_, rfl⟩ | ⟨hl, c, i, hc, rfl⟩ | ⟨hl, he, hd, h⟩
  · exact .same _
  · exact .fault _ _ _ hl hc
  · rw [next_inj h]; exact .rxErrFatal hl he hd

theorem execSinkTake_effect {n : Nat} (h : execSinkTake n s = .next t) : Effect s (.sinkTake n) t := by
  obtain ⟨hl, hb, h⟩ := whileSending_cases h
  split at h
  · next hn => rw [next_inj h]; exact .sinkTake n hl hb hn
  · simp at h

theorem execSinkFail_effect (h : execSinkFail s = .next t) : Effect s .sinkFail t := by
  obtain ⟨hl, hb, h⟩ := whileSending_cases h
  rw [next_inj h]
  exact .sinkFail hl hb

theorem readFault_effect {off : Offset} {ignored : Word32} (h : readFault off s = .next t) :
    Effect s (.rd off ignored) t := by
  unfold readFault at h
  split at h
  · rw [next_inj h]; exact .rd off ignored 0
  · next hl => rw [next_inj h]; exact .fault _ _ _ (by simpa using hl) (by decide)

theorem execRd_effect {off : Offset} {ignored : Word32} (h : execRd off ignored s = .next t) :
    Effect s (.rd off ignored) t := by
  unfold execRd at h
  split at h
  · exact readFault_effect h
  · split at h
    · exact readFault_effect h
    · rw [next_inj h]; exact .rd _ _ _
    · rw [next_inj h]; exact .rd _ _ _

/-- The command a CMD word decodes to does what its own meaning does. -/
theorem runCommand_effect {w : Word32} {i : Instr} (hd : decodeCmd w = .ok i) (h : runCommand w i s = .next t) :
    Effect s i t := by
  rcases decodeCmd_isCommand hd with rfl | rfl | ⟨a, rfl⟩ | rfl | rfl | rfl | rfl | ⟨d, rfl⟩ | ⟨d, rfl⟩ | ⟨d, ty, n, rfl⟩
  · exact execInit_effect h
  · exact execCrcClear_effect h
  · exact execCrcFeed_effect h
  · exact execChUnpack_effect h
  · exact execChPack_effect h
  · exact execLatchCh_effect h
  · exact execLatchLink_effect h
  · exact execSendBattery_effect h
  · exact execSendGps_effect h
  · exact execSendRaw_effect h

/-- CMD is the one write-only register, at offset 0x000 (R43). -/
theorem regAt_wo {off : Offset} {r : Reg} (hr : regAt off = some r) (hw : regAccess r = .wo) : off = 0x000 := by
  unfold regAt at hr
  split at hr
  case h_1 h0 => exact BitVec.eq_of_toNat_eq h0
  case h_18 =>
    unfold arrayAt at hr
    simp only [Option.or_eq_some_iff, Option.map_eq_some_iff] at hr
    rcases hr with ⟨_, _, rfl⟩ | ⟨_, ⟨_, _, rfl⟩ | ⟨_, ⟨_, _, rfl⟩ | ⟨_, ⟨_, _, rfl⟩ | ⟨_, ⟨_, _, rfl⟩ | ⟨_, _, _, rfl⟩⟩⟩⟩⟩ <;>
      simp [regAccess] at hw
  all_goals
    simp only [Option.some.injEq] at hr
    subst hr
    simp [regAccess] at hw

theorem execWr_effect {off : Offset} {v : Word32} (h : execWr off v s = .next t) : Effect s (.wr off v) t := by
  rcases unlessFrozen_cases h with ⟨_, rfl⟩ | ⟨hl, hk⟩
  · exact .same _
  · split at hk
    · rw [next_inj hk]; exact .fault _ _ _ hl (by decide)
    · next r hr =>
      split at hk
      · rw [next_inj hk]; exact .fault _ _ _ hl (by decide)
      · next hw =>
        obtain rfl := regAt_wo hr hw
        cases hd : decodeCmd v with
        | ok i =>
          rw [executeCommand_ok hd] at hk
          exact .wrCmd v i t hl hd (runCommand_effect hd hk)
        | error e =>
          rw [executeCommand_error hd] at hk
          rw [next_inj hk]
          exact .fault _ _ _ hl (by decide)
      · next hw =>
        split at hk
        · next hf => rw [next_inj hk]; exact .wrData off v r hl hr hw hf
        · rw [next_inj hk]; exact .fault _ _ _ hl (by decide)

/-- Whenever `exec` answers a next state, the instruction had one of its effects. -/
theorem exec_effect {i : Instr} (h : exec i s = .next t) : Effect s i t := by
  cases i with
  | init => exact execInit_effect h
  | crcClear => exact execCrcClear_effect h
  | crcFeed a => exact execCrcFeed_effect h
  | chUnpack => exact execChUnpack_effect h
  | chPack => exact execChPack_effect h
  | latchCh => exact execLatchCh_effect h
  | latchLink => exact execLatchLink_effect h
  | sendBattery d => exact execSendBattery_effect h
  | sendGps d => exact execSendGps_effect h
  | sendRaw d ty n => exact execSendRaw_effect h
  | rxByte d => exact execRxByte_effect h
  | rxErrTransient => exact execRxErrTransient_effect h
  | rxErrFatal => exact execRxErrFatal_effect h
  | sinkTake n => exact execSinkTake_effect h
  | sinkFail => exact execSinkFail_effect h
  | rd off ignored => exact execRd_effect h
  | wr off v => exact execWr_effect h

/-- A rejected word leaves the state, or records a fault on a live block. -/
theorem rejectWord_cases {e : DecodeError} (h : rejectWord e s = .next t) :
    t = s ∨ (s.faulted = false ∧ ∃ code info, code ≠ .none ∧ t = faultEntry code info s) := by
  cases e with
  | notASinkStep w => simp [rejectWord] at h
  | unassignedOpcode w | nonZeroField w | illegalRxWord w =>
    rcases unlessFrozen_cases h with ⟨_, rfl⟩ | ⟨hl, h⟩
    · exact .inl rfl
    · exact .inr ⟨hl, _, _, by decide, next_inj h⟩

/-- Everything a step can do: idle, reset, an instruction's effect, or a rejected word's. -/
theorem step_cases (h : step s = .next t) :
    (s.inputs = [] ∧ t = s) ∨
    ∃ inp rest, s.inputs = inp :: rest ∧
      ((inp = .reset ∧ t = resetBlock { s with inputs := rest }) ∨
       (∃ c i, inp.codeWord = some c ∧ decode c = .ok i ∧ Effect { s with inputs := rest } i t) ∨
       t = { s with inputs := rest } ∨
       (s.faulted = false ∧ ∃ code info, code ≠ .none ∧ t = faultEntry code info { s with inputs := rest })) := by
  cases hi : s.inputs with
  | nil =>
    simp only [step, takeInput, hi] at h
    exact .inl ⟨rfl, next_inj h⟩
  | cons inp rest =>
    refine .inr ⟨inp, rest, rfl, ?_⟩
    simp only [step, takeInput, hi] at h
    cases hc : inp.codeWord with
    | none =>
      simp only [hc] at h
      refine .inl ⟨?_, next_inj h⟩
      cases inp <;> simp [Input.codeWord] at hc ⊢
    | some c =>
      simp only [hc] at h
      cases hd : decode c with
      | ok i =>
        simp only [hd] at h
        exact .inr (.inl ⟨c, i, rfl, hd, exec_effect h⟩)
      | error e =>
        simp only [hd] at h
        rcases rejectWord_cases h with h | h
        · exact .inr (.inr (.inl h))
        · exact .inr (.inr (.inr h))

end Sys2Proof.Machine
end

