-- ==== Sys2Proof/Laws/Registers.lean ====
section
/-! SUPPORT. The register map as a bijection between registers and their offsets, and the laws of one register read and
one register write. -/

namespace Sys2Proof.Machine

/-- The offset of a register, from the map R43. -/
def regOffset (r : Reg) : Nat :=
  match r with
  | .cmd => 0x000
  | .status => 0x004
  | .fault => 0x008
  | .faultInfo => 0x00C
  | .rxDebug => 0x010
  | .crcAcc => 0x014
  | .txInfo => 0x018
  | .chShadow i => 0x040 + 4 * i.val
  | .linkShadow i => 0x080 + 4 * i.val
  | .codecCh i => 0x100 + 4 * i.val
  | .codecPk i => 0x140 + 4 * i.val
  | .batVoltage => 0x1A0
  | .batCurrent => 0x1A4
  | .batCapacity => 0x1A8
  | .batRemaining => 0x1AC
  | .gpsLat => 0x1B0
  | .gpsLon => 0x1B4
  | .gpsGspd => 0x1B8
  | .gpsHeading => 0x1BC
  | .gpsAlt => 0x1C0
  | .gpsSats => 0x1C4
  | .txPayload i => 0x200 + 4 * i.val
  | .txBuf i => 0x400 + 4 * i.val

theorem arrayIndex_some {base n off : Nat} {i : Fin n} (h : arrayIndex base n off = some i) :
    off = base + 4 * i.val := by
  unfold arrayIndex at h
  split at h
  · next hc =>
    simp only [Option.some.injEq] at h
    subst h
    simp only
    omega
  · simp at h

/-- The map reads a register only at the register's own offset (R43). -/
theorem regAt_some {off : Offset} {r : Reg} (h : regAt off = some r) : off.toNat = regOffset r := by
  unfold regAt at h
  split at h
  case h_18 =>
    unfold arrayAt at h
    simp only [Option.or_eq_some_iff, Option.map_eq_some_iff] at h
    rcases h with ⟨_, hi, rfl⟩ | ⟨_, ⟨_, hi, rfl⟩ | ⟨_, ⟨_, hi, rfl⟩ | ⟨_, ⟨_, hi, rfl⟩ | ⟨_, ⟨_, hi, rfl⟩ |
      ⟨_, _, hi, rfl⟩⟩⟩⟩⟩ <;>
      exact arrayIndex_some hi
  all_goals
    next hn =>
    simp only [Option.some.injEq] at h
    subst h
    exact hn

/-- Every register is at its offset (R43). -/
theorem regAt_regOffset (r : Reg) : regAt (BitVec.ofNat 12 (regOffset r)) = some r := by
  cases r with
  | chShadow i => revert i; decide +kernel
  | linkShadow i => revert i; decide +kernel
  | codecCh i => revert i; decide +kernel
  | codecPk i => revert i; decide +kernel
  | txPayload i => revert i; decide +kernel
  | txBuf i => revert i; decide +kernel
  | _ => rfl

/-- Two offsets with the same register are the same offset. -/
theorem regAt_injective {off off' : Offset} {r : Reg} (h : regAt off = some r) (h' : regAt off' = some r) :
    off = off' :=
  BitVec.eq_of_toNat_eq ((regAt_some h).trans (regAt_some h').symm)

/-- RD of a readable register, in every state. -/
theorem execRd_of_regAt {off : Offset} {r : Reg} (h : regAt off = some r) (ha : regAccess r ≠ .wo) (ignored : Word32)
    (s : State) : execRd off ignored s = .next { s with rdData := some (readReg r s) } := by
  unfold execRd
  rw [h]
  cases hr : regAccess r with
  | wo => exact absurd hr ha
  | ro => simp [hr]
  | rw => simp [hr]

/-- WR of a RW register on a live block. -/
theorem execWr_of_regAt {off : Offset} {r : Reg} (h : regAt off = some r) (ha : regAccess r = .rw) (v : Word32)
    {s : State} (hl : s.faulted = false) :
    execWr off v s =
      if fitsReg r v then .next (writeReg r v s) else .next (faultEntry .badValue (accessInfo true off) s) := by
  unfold execWr
  rw [unlessFrozen_of_live hl, h]
  simp [ha]

/-- WR to CMD on a live block executes the command. -/
theorem execWr_cmd (w : Word32) {s : State} (hl : s.faulted = false) : execWr 0x000 w s = executeCommand w s := by
  unfold execWr
  rw [unlessFrozen_of_live hl, show regAt 0x000 = some .cmd from rfl]
  rfl

/-- A register that was written reads as the value written, if it fits. -/
theorem readReg_writeReg_self {r : Reg} (ha : regAccess r = .rw) {v : Word32} (hv : v.toNat < 2 ^ regWidth r)
    (s : State) : readReg r (writeReg r v s) = v := by
  cases r <;> simp [regAccess] at ha <;> simp only [readReg, writeReg, regWidth] at * <;>
    first | rfl | (apply BitVec.eq_of_toNat_eq; simp; omega)

/-- Every other register reads as before. -/
theorem readReg_writeReg_other {r q : Reg} (ha : regAccess r = .rw) (h : q ≠ r) (v : Word32) (s : State) :
    readReg q (writeReg r v s) = readReg q s := by
  cases r <;> simp [regAccess] at ha <;> cases q <;> first | rfl | (exact absurd rfl h) | skip
  all_goals
    simp only [readReg, writeReg]
    simp only [ne_eq, Reg.codecCh.injEq, Reg.codecPk.injEq, Reg.txPayload.injEq, Fin.ext_iff] at h
    rw [Fin.getElem_fin, Fin.getElem_fin, Vector.getElem_set_ne]
    omega

end Sys2Proof.Machine
end

