-- ==== Sys2Proof/Laws/Inputs.lean ====
section
/-! SUPPORT. No instruction reads or writes the words not yet delivered (`exec_withWaiting`), so a run over delivered words
is the meanings in sequence (`runInputs_cons`). -/

namespace Sys2Proof.Machine

/-- An outcome with its next state changed. -/
def onNext (f : State → State) (r : Result) : Result :=
  match r with
  | .next s => .next (f s)
  | .fault e => .fault e
  | .refused e => .refused e

/-- The state with other words waiting. -/
def withWaiting (l : List Input) (s : State) : State := { s with inputs := l }

@[simp] theorem onNext_next (f : State → State) (s : State) : onNext f (.next s) = .next (f s) := rfl
@[simp] theorem onNext_fault (f : State → State) (e : Fault) : onNext f (.fault e) = .fault e := rfl
@[simp] theorem onNext_refused (f : State → State) (e : Refusal) : onNext f (.refused e) = .refused e := rfl

theorem onNext_ite (f : State → State) (c : Prop) [Decidable c] (a b : Result) :
    onNext f (if c then a else b) = if c then onNext f a else onNext f b := by
  split <;> rfl

theorem unlessFrozen_withWaiting (l : List Input) (s : State) (k k' : Result)
    (h : k' = onNext (withWaiting l) k) :
    unlessFrozen (withWaiting l s) k' = onNext (withWaiting l) (unlessFrozen s k) := by
  subst h
  cases hs : s.faulted with
  | true => rw [unlessFrozen_of_frozen hs, unlessFrozen_of_frozen (s := withWaiting l s) hs]; rfl
  | false => rw [unlessFrozen_of_live hs, unlessFrozen_of_live (s := withWaiting l s) hs]

theorem rxChecked_withWaiting (l : List Input) (w : BitVec 10) (s : State) (k k' : Result)
    (h : k' = onNext (withWaiting l) k) :
    rxChecked w (withWaiting l s) k' = onNext (withWaiting l) (rxChecked w s k) := by
  apply unlessFrozen_withWaiting
  subst h
  simp only [onNext_ite]
  rfl

theorem sendFrame_withWaiting (l : List Input) (w : Word32) (d ty : Byte) (n : Nat) (p : List Byte) (s : State) :
    sendFrame w d ty n p (withWaiting l s) = onNext (withWaiting l) (sendFrame w d ty n p s) := by
  apply unlessFrozen_withWaiting
  simp only [onNext_ite]
  rfl

theorem whileSending_withWaiting (l : List Input) (s : State) (k k' : Result) (h : k' = onNext (withWaiting l) k) :
    whileSending (withWaiting l s) k' = onNext (withWaiting l) (whileSending s k) := by
  subst h
  unfold whileSending
  rw [onNext_ite]
  rfl

theorem endSend_withWaiting (l : List Input) (s : State) :
    endSend (withWaiting l s) = withWaiting l (endSend s) := by
  unfold endSend
  by_cases h : s.txPos = s.txLen
  · rw [if_pos h, if_pos (show (withWaiting l s).txPos = (withWaiting l s).txLen from h)]; rfl
  · rw [if_neg h, if_neg (show ¬ (withWaiting l s).txPos = (withWaiting l s).txLen from h)]

theorem dispatch_withWaiting (l : List Input) (ty : Byte) (p : List Byte) (s : State) :
    dispatch ty p (withWaiting l s) = withWaiting l (dispatch ty p s) := by
  unfold dispatch dispatchChannels dispatchLink
  split_ifs <;> rfl

theorem rxComplete_withWaiting (l : List Input) (s : State) :
    rxComplete (withWaiting l s) = withWaiting l (rxComplete s) := by
  unfold rxComplete
  by_cases h : s.rxCnt.toNat = s.rxLen.toNat
  · rw [if_pos h, if_pos (show (withWaiting l s).rxCnt.toNat = (withWaiting l s).rxLen.toNat from h)]
    have hv : ∀ (b : List Byte) (u : State), validateBody b (withWaiting l u) = withWaiting l (validateBody b u) := by
      intro b u
      unfold validateBody
      split
      · exact dispatch_withWaiting l _ _ _
      · rfl
    have := hv (s.rxBuf.toList.take s.rxLen.toNat) { s with rxState := .validate }
    have hr : rxValidate { withWaiting l s with rxState := .validate } =
        withWaiting l (rxValidate { s with rxState := .validate }) := this
    rw [hr]
    rfl
  · rw [if_neg h, if_neg (show ¬ (withWaiting l s).rxCnt.toNat = (withWaiting l s).rxLen.toNat from h)]

theorem execRxByte_withWaiting (l : List Input) (d : Byte) (s : State) :
    execRxByte d (withWaiting l s) = onNext (withWaiting l) (execRxByte d s) := by
  apply rxChecked_withWaiting
  show (match s.rxState with | .seekSync => _ | .readLen => _ | .readBody => _ | .validate => _) = _
  cases hs : s.rxState with
  | seekSync =>
    simp only [onNext_next, rxSeek]
    split <;> rfl
  | readLen =>
    simp only [onNext_next, rxReadLen]
    split <;> rfl
  | readBody =>
    simp only [rxBody]
    by_cases hc : s.rxCnt.toNat < 62
    · rw [if_pos hc, if_pos (show (withWaiting l s).rxCnt.toNat < 62 from hc), onNext_next,
        ← rxComplete_withWaiting]
      rfl
    · rw [if_neg hc, if_neg (show ¬ (withWaiting l s).rxCnt.toNat < 62 from hc), onNext_fault]
  | validate => rfl

theorem readReg_withWaiting (l : List Input) (r : Reg) (s : State) : readReg r (withWaiting l s) = readReg r s := by
  cases r <;> rfl

theorem writeReg_withWaiting (l : List Input) (r : Reg) (v : Word32) (s : State) :
    writeReg r v (withWaiting l s) = withWaiting l (writeReg r v s) := by
  cases r <;> rfl

theorem execRd_withWaiting (l : List Input) (off : Offset) (v : Word32) (s : State) :
    execRd off v (withWaiting l s) = onNext (withWaiting l) (execRd off v s) := by
  have hf : readFault off (withWaiting l s) = onNext (withWaiting l) (readFault off s) := by
    unfold readFault
    rw [onNext_ite]
    rfl
  unfold execRd
  split
  · exact hf
  · split
    · exact hf
    · rw [readReg_withWaiting]; rfl
    · rw [readReg_withWaiting]; rfl

theorem runCommand_withWaiting (l : List Input) (w : Word32) (i : Instr) (s : State) :
    runCommand w i (withWaiting l s) = onNext (withWaiting l) (runCommand w i s) := by
  cases i with
  | init =>
    apply unlessFrozen_withWaiting
    rw [onNext_ite]
    rfl
  | crcClear | crcFeed | chUnpack | chPack | latchCh | latchLink => exact unlessFrozen_withWaiting l s _ _ rfl
  | sendBattery d => exact sendFrame_withWaiting l _ _ _ _ _ s
  | sendGps d => exact sendFrame_withWaiting l _ _ _ _ _ s
  | sendRaw d ty n => exact sendFrame_withWaiting l _ _ _ _ _ s
  | rxByte | rxErrTransient | rxErrFatal | sinkTake | sinkFail | rd | wr => rfl

theorem execWr_withWaiting (l : List Input) (off : Offset) (v : Word32) (s : State) :
    execWr off v (withWaiting l s) = onNext (withWaiting l) (execWr off v s) := by
  apply unlessFrozen_withWaiting
  split
  · rfl
  · split
    · rfl
    · unfold executeCommand
      split
      · exact runCommand_withWaiting l _ _ s
      · rfl
    · split
      · rw [writeReg_withWaiting]; rfl
      · rfl

/-- No instruction reads or writes the words not yet delivered. -/
theorem exec_withWaiting (l : List Input) (i : Instr) (s : State) :
    exec i (withWaiting l s) = onNext (withWaiting l) (exec i s) := by
  cases i with
  | init =>
    apply unlessFrozen_withWaiting
    rw [onNext_ite]
    rfl
  | crcClear => exact unlessFrozen_withWaiting l s _ _ rfl
  | crcFeed a => exact unlessFrozen_withWaiting l s _ _ rfl
  | chUnpack => exact unlessFrozen_withWaiting l s _ _ rfl
  | chPack => exact unlessFrozen_withWaiting l s _ _ rfl
  | latchCh => exact unlessFrozen_withWaiting l s _ _ rfl
  | latchLink => exact unlessFrozen_withWaiting l s _ _ rfl
  | sendBattery d => exact sendFrame_withWaiting l _ _ _ _ _ s
  | sendGps d => exact sendFrame_withWaiting l _ _ _ _ _ s
  | sendRaw d ty n => exact sendFrame_withWaiting l _ _ _ _ _ s
  | rxByte d => exact execRxByte_withWaiting l d s
  | rxErrTransient => exact rxChecked_withWaiting l _ s _ _ rfl
  | rxErrFatal => exact rxChecked_withWaiting l _ s _ _ rfl
  | sinkTake n =>
    apply whileSending_withWaiting
    rw [onNext_ite, onNext_next, onNext_refused, ← endSend_withWaiting]
    rfl
  | sinkFail => exact whileSending_withWaiting l s _ _ rfl
  | rd off v => exact execRd_withWaiting l off v s
  | wr off v => exact execWr_withWaiting l off v s

end Sys2Proof.Machine

namespace Sys2Proof.Safety

open Sys2Proof.Machine

/-- A run whose first step goes on is the run of the remaining steps from there. -/
theorem run_of_next (M : Host.Core) (k : Nat) {s t : M.State} (h : M.step s = .next t) : M.run (k + 1) s = M.run k t := by
  conv_lhs => unfold Host.Core.run
  rw [h]

/-- A run over a delivered word that is an instruction performs it, then goes on with the rest. -/
theorem runInputs_cons {inp : Input} {c : CodeWord} {i : Instr} (hc : inp.codeWord = some c) (hd : decode c = .ok i)
    (rest : List Input) {s t : State} (h : exec i s = .next t) : runInputs (inp :: rest) s = runInputs rest t := by
  have hs : step (withInputs (inp :: rest) s) = .next (withInputs rest t) := by
    have he := exec_withWaiting (rest ++ s.inputs) i s
    rw [h, onNext_next] at he
    have hw : t.inputs = s.inputs := by
      have h' := exec_withWaiting s.inputs i s
      rw [show withWaiting s.inputs s = s from rfl, h, onNext_next, Host.Outcome.next.injEq] at h'
      rw [h']
      rfl
    have hx : step (withInputs (inp :: rest) s) = exec i (withWaiting (rest ++ s.inputs) s) := by
      simp only [step, takeInput, withInputs, List.cons_append, hc, hd, withWaiting]
    rw [hx, he, withInputs, hw]
    rfl
  exact run_of_next Sys2Proof.core rest.length hs

/-- A run over no words changes nothing. -/
theorem runInputs_nil (s : State) : runInputs [] s = .next s := rfl

end Sys2Proof.Safety
end

