-- ==== Sys2Proof/Laws/Words.lean ====
section
/-! SUPPORT. The fields of an assembled word are the parts it was assembled from, and back: concatenation and extraction
read as arithmetic on naturals, once for every format. -/

namespace Sys2Proof

/-- Concatenation as a sum: the high part shifted by the low part's width. -/
theorem toNat_append_add {n m : Nat} (x : BitVec n) (y : BitVec m) :
    (x ++ y).toNat = x.toNat * 2 ^ m + y.toNat := by
  rw [BitVec.toNat_append, ← Nat.shiftLeft_add_eq_or_of_lt y.isLt, Nat.shiftLeft_eq]

/-- A field as a quotient and remainder. -/
theorem toNat_extract {n : Nat} (x : BitVec n) (start len : Nat) :
    (x.extractLsb' start len).toNat = x.toNat / 2 ^ start % 2 ^ len := by
  rw [BitVec.extractLsb'_toNat, Nat.shiftRight_eq_div_pow]

/-- A CMD word is the number its four bytes spell (R91). -/
theorem cmdWord_toNat (op a b c : Byte) :
    (cmdWord op a b c).toNat = c.toNat * 2 ^ 24 + b.toNat * 2 ^ 16 + a.toNat * 2 ^ 8 + op.toNat := by
  have h : (cmdWord op a b c).toNat = ((c ++ b ++ a ++ op : BitVec (8 + 8 + 8 + 8))).toNat := rfl
  rw [h, toNat_append_add, toNat_append_add, toNat_append_add]
  omega

@[simp] theorem cmdOp_cmdWord (op a b c : Byte) : cmdOp (cmdWord op a b c) = op := by
  apply BitVec.eq_of_toNat_eq
  rw [cmdOp, toNat_extract, cmdWord_toNat]
  omega

@[simp] theorem cmdA_cmdWord (op a b c : Byte) : cmdA (cmdWord op a b c) = a := by
  apply BitVec.eq_of_toNat_eq
  rw [cmdA, toNat_extract, cmdWord_toNat]
  omega

@[simp] theorem cmdB_cmdWord (op a b c : Byte) : cmdB (cmdWord op a b c) = b := by
  apply BitVec.eq_of_toNat_eq
  rw [cmdB, toNat_extract, cmdWord_toNat]
  omega

@[simp] theorem cmdC_cmdWord (op a b c : Byte) : cmdC (cmdWord op a b c) = c := by
  apply BitVec.eq_of_toNat_eq
  rw [cmdC, toNat_extract, cmdWord_toNat]
  omega

/-- A CMD word is assembled from its own fields (R91). -/
theorem cmdWord_fields (w : BitVec 32) : cmdWord (cmdOp w) (cmdA w) (cmdB w) (cmdC w) = w := by
  apply BitVec.eq_of_toNat_eq
  rw [cmdWord_toNat, cmdOp, cmdA, cmdB, cmdC, toNat_extract, toNat_extract, toNat_extract, toNat_extract]
  omega

/-- The RX port word of a byte is the byte (R95). -/
theorem rxw_byte_toNat (d : Byte) : (0#2 ++ d : BitVec 10).toNat = d.toNat := by
  have h : (0#2 ++ d : BitVec 10).toNat = (0#2 ++ d : BitVec (2 + 8)).toNat := rfl
  rw [h, toNat_append_add]
  simp

/-- The sink word of a count is the count (R96). -/
theorem sinkw_take_toNat (n : BitVec 7) : (0#1 ++ n : BitVec 8).toNat = n.toNat := by
  have h : (0#1 ++ n : BitVec 8).toNat = (0#1 ++ n : BitVec (1 + 7)).toNat := rfl
  rw [h, toNat_append_add]
  simp

/-- A BUS word is the number its three fields spell (R97). -/
theorem bus_toNat (we : BitVec 1) (off : BitVec 12) (data : BitVec 32) :
    (we ++ off ++ data : BitVec 45).toNat = we.toNat * 2 ^ 44 + off.toNat * 2 ^ 32 + data.toNat := by
  have h : (we ++ off ++ data : BitVec 45).toNat = (we ++ off ++ data : BitVec (1 + 12 + 32)).toNat := rfl
  rw [h, toNat_append_add, toNat_append_add]
  omega

/-- A single bit as a quotient and remainder. -/
theorem getLsbD_eq_decide {n : Nat} (x : BitVec n) (k : Nat) : x.getLsbD k = decide (x.toNat / 2 ^ k % 2 = 1) := by
  rw [BitVec.getLsbD, Nat.testBit_eq_decide_div_mod_eq]

end Sys2Proof
end

