-- ==== Sys2Proof/Laws/PerInstr.lean ====
section
/-! SUPPORT. Families of lemmas with one member per instruction. `TableRow`: the word the encoder writes has the fixed bits
of the instruction's row of spec/opcode_table.json. -/

namespace Sys2Proof.Laws.TableRow

open Sys2Proof

/-- The bits of a word as a number, bit 0 least significant. -/
def bits (c : CodeWord) : Nat :=
  match c with
  | .cmd w => w.toNat
  | .rxw w => w.toNat
  | .sinkw w => w.toNat
  | .bus w => w.toNat

/-- The fixed fields of an instruction's row: lowest bit, width, value. -/
def fixedFields (i : Instr) : List (Nat × Nat × Nat) :=
  match i with
  | .init => [(0, 32, 0x1)]
  | .crcClear => [(0, 32, 0x2)]
  | .crcFeed _ => [(0, 8, 0x3), (16, 16, 0)]
  | .chUnpack => [(0, 32, 0x4)]
  | .chPack => [(0, 32, 0x5)]
  | .latchCh => [(0, 32, 0x6)]
  | .latchLink => [(0, 32, 0x7)]
  | .sendBattery _ => [(0, 8, 0x8), (16, 16, 0)]
  | .sendGps _ => [(0, 8, 0x9), (16, 16, 0)]
  | .sendRaw _ _ _ => [(0, 8, 0xA)]
  | .rxByte _ => [(8, 2, 0)]
  | .rxErrTransient => [(0, 10, 0x100)]
  | .rxErrFatal => [(0, 10, 0x200)]
  | .sinkTake _ => [(7, 1, 0)]
  | .sinkFail => [(0, 8, 0x80)]
  | .rd _ _ => [(44, 1, 0)]
  | .wr _ _ => [(44, 1, 1)]

/-- The encoder's word holds every fixed field of the instruction's row. -/
def Statement (i : Instr) : Prop :=
  ∀ f ∈ fixedFields i, bits (encode i) / 2 ^ f.1 % 2 ^ f.2.1 = f.2.2

/-- A command with the one argument A: its opcode byte and its zero bytes. -/
theorem oneArg (op a : Byte) : ∀ f ∈ [(0, 8, op.toNat), (16, 16, 0)], (cmdWord op a 0 0).toNat / 2 ^ f.1 % 2 ^ f.2.1 = f.2.2 := by
  rw [cmdWord_toNat]
  simp
  omega

theorem init : Statement .init := by unfold Statement; decide
theorem crcClear : Statement .crcClear := by unfold Statement; decide
theorem crcFeed (a : Byte) : Statement (.crcFeed a) := oneArg 0x03 a
theorem chUnpack : Statement .chUnpack := by unfold Statement; decide
theorem chPack : Statement .chPack := by unfold Statement; decide
theorem latchCh : Statement .latchCh := by unfold Statement; decide
theorem latchLink : Statement .latchLink := by unfold Statement; decide
theorem sendBattery (dest : Byte) : Statement (.sendBattery dest) := oneArg 0x08 dest
theorem sendGps (dest : Byte) : Statement (.sendGps dest) := oneArg 0x09 dest

theorem sendRaw (dest type : Byte) (len : Nat) : Statement (.sendRaw dest type len) := by
  simp only [Statement, fixedFields, List.mem_singleton, forall_eq, encode, bits, cmdWord_toNat]
  simp
  omega

theorem rxByte (d : Byte) : Statement (.rxByte d) := by
  simp only [Statement, fixedFields, List.mem_singleton, forall_eq, encode, bits, rxw_byte_toNat]
  omega

theorem rxErrTransient : Statement .rxErrTransient := by unfold Statement; decide
theorem rxErrFatal : Statement .rxErrFatal := by unfold Statement; decide

theorem sinkTake (n : Nat) : Statement (.sinkTake n) := by
  simp only [Statement, fixedFields, List.mem_singleton, forall_eq, encode, bits, sinkw_take_toNat]
  omega

theorem sinkFail : Statement .sinkFail := by unfold Statement; decide

theorem rd (off : Offset) (ignored : Word32) : Statement (.rd off ignored) := by
  simp only [Statement, fixedFields, List.mem_singleton, forall_eq, encode, bits, bus_toNat]
  simp
  omega

theorem wr (off : Offset) (data : Word32) : Statement (.wr off data) := by
  simp only [Statement, fixedFields, List.mem_singleton, forall_eq, encode, bits, bus_toNat]
  simp
  omega

end Sys2Proof.Laws.TableRow
end

