-- ==== Sys2Proof/Tests/Slice0.lean ====
section
/-! SUPPORT. Tests: ill-formed terms refused, every constructor's decoding from a word written out from 30_encoding.md, at
most two single-step tests per instruction with results from 95_test_vectors.md, and for every statement with hypotheses a
witness that meets them, clause by clause at boundary values. -/

namespace Sys2Proof.Tests

open Sys2Proof.Machine Sys2Proof.Safety Sys2Proof.Claims

-- One theorem after another: side by side, their kernel checks reserve more memory than a check may use.
set_option Elab.async false

/-! ## Small states -/

/-- The next state of an outcome. -/
def after (r : Result) : Option State :=
  match r with
  | .next t => some t
  | .fault _ => none
  | .refused _ => none

/-- One field of the next state of an instruction. -/
def field? {α : Type} (f : State → α) (i : Instr) (s : State) : Option α := (after (exec i s)).map f

/-- Reset, then INIT. -/
abbrev enabled : State := { State.reset with en := true }

/-- After a fatal read error. -/
abbrev dead : State := { enabled with rxDead := true }

/-- Frozen by the fault of program P7 (95_test_vectors.md §10.7). -/
abbrev frozen : State := { enabled with faulted := true, faultCode := .badArg, faultInfo := 0x00000008 }

/-- The framer after a sync byte (vector F1). -/
abbrev atLen : State := { enabled with rxState := .readLen, rxDest := 0xC8 }

/-- The framer within a body of `len` bytes of which it holds some. -/
abbrev inBody (len : BitVec 8) (held : List Byte) : State :=
  { enabled with rxState := .readBody, rxDest := 0xC8, rxLen := len, rxCnt := BitVec.ofNat 6 held.length,
                 rxBuf := fillBytes 62 held }

/-- The link payload of vector F12. -/
abbrev linkBytes : List Byte := [0x32, 0x35, 0x64, 0xF6, 0x01, 0x02, 0x03, 0x28, 0x5F, 0x05]

/-- The battery frame of 95_test_vectors.md §1.3. -/
abbrev batteryFrame : List Byte := [0xC8, 0x0A, 0x08, 0x00, 0x7E, 0x00, 0x32, 0x00, 0x08, 0x98, 0x57, 0x08]

/-- The registers of vector T1. -/
abbrev battery : State :=
  { enabled with batVoltage := 126, batCurrent := 50, batCapacity := 2200, batRemaining := 87 }

/-- Vector T1 in flight, some bytes taken. -/
abbrev sending (pos : BitVec 7) : State :=
  { battery with txBuf := fillBytes 64 batteryFrame, txLen := 12, txPos := pos, txBusy := true,
                 wire := batteryFrame.take pos.toNat }

/-- The registers of vector T5. -/
abbrev gps : State :=
  { enabled with gpsLat := 473977420, gpsLon := 85455940, gpsGspd := 250, gpsHeading := 9000, gpsAlt := 1500,
                 gpsSats := 12 }

/-! ## Well-formedness: each check refuses an ill-formed term -/

theorem test_sendRaw_length_too_wide : (Instr.sendRaw 0xC8 0x7F 256).wellFormed = false := by decide
theorem test_sinkTake_count_too_wide : (Instr.sinkTake 128).wellFormed = false := by decide

/-! ## Decoding: words written out from the encoding tables (R91, R92, R95, R96, R97) -/

theorem test_decode_init : decode (.cmd 0b00000000000000000000000000000001) = .ok .init := by decide
theorem test_decode_crcClear : decode (.cmd 0b00000000000000000000000000000010) = .ok .crcClear := by decide
theorem test_decode_crcFeed : decode (.cmd 0b00000000000000000001011000000011) = .ok (.crcFeed 0x16) := by decide
theorem test_decode_chUnpack : decode (.cmd 0b00000000000000000000000000000100) = .ok .chUnpack := by decide
theorem test_decode_chPack : decode (.cmd 0b00000000000000000000000000000101) = .ok .chPack := by decide
theorem test_decode_latchCh : decode (.cmd 0b00000000000000000000000000000110) = .ok .latchCh := by decide
theorem test_decode_latchLink : decode (.cmd 0b00000000000000000000000000000111) = .ok .latchLink := by decide
theorem test_decode_sendBattery : decode (.cmd 0b00000000000000001100100000001000) = .ok (.sendBattery 0xC8) := by decide
theorem test_decode_sendGps : decode (.cmd 0b00000000000000001110101000001001) = .ok (.sendGps 0xEA) := by decide
theorem test_decode_sendRaw : decode (.cmd 0b00001010000101001100100000001010) = .ok (.sendRaw 0xC8 0x14 10) := by decide
theorem test_decode_rxByte : decode (.rxw 0b0011001000) = .ok (.rxByte 0xC8) := by decide
theorem test_decode_rxErrTransient : decode (.rxw 0b0100000000) = .ok .rxErrTransient := by decide
theorem test_decode_rxErrFatal : decode (.rxw 0b1000000000) = .ok .rxErrFatal := by decide
theorem test_decode_sinkTake : decode (.sinkw 0b00001100) = .ok (.sinkTake 12) := by decide
theorem test_decode_sinkFail : decode (.sinkw 0b10000000) = .ok .sinkFail := by decide
theorem test_decode_rd :
    decode (.bus 0b0_000000000100_00000000000000000000000000000000) = .ok (.rd 0x004 0) := by decide
theorem test_decode_wr :
    decode (.bus 0b1_000110100000_00000000000000000000000001111110) = .ok (.wr 0x1A0 126) := by decide

/-- No word is read as its neighbour: unassigned opcodes, non-zero fields, illegal RX and sink words are refused. -/
theorem test_decode_refuses :
    decode (.cmd 0x00000000) = .error (.unassignedOpcode 0x00000000) ∧
    decode (.cmd 0x0000000B) = .error (.unassignedOpcode 0x0000000B) ∧
    decode (.cmd 0x00000101) = .error (.nonZeroField 0x00000101) ∧
    decode (.cmd 0x0001C808) = .error (.nonZeroField 0x0001C808) ∧
    decode (.rxw 0x1FF) = .error (.illegalRxWord 0x1FF) ∧ decode (.rxw 0x300) = .error (.illegalRxWord 0x300) ∧
    decode (.sinkw 0x81) = .error (.notASinkStep 0x81) := by decide

/-- Every row of the opcode table, at its match word. -/
theorem test_decodeTableWord :
    decodeTableWord 32 0x1 = some .init ∧ decodeTableWord 32 0x2 = some .crcClear ∧
    decodeTableWord 32 0x3 = some (.crcFeed 0) ∧ decodeTableWord 32 0x4 = some .chUnpack ∧
    decodeTableWord 32 0x5 = some .chPack ∧ decodeTableWord 32 0x6 = some .latchCh ∧
    decodeTableWord 32 0x7 = some .latchLink ∧ decodeTableWord 32 0x8 = some (.sendBattery 0) ∧
    decodeTableWord 32 0x9 = some (.sendGps 0) ∧ decodeTableWord 8 0xA = some (.sendRaw 0 0 0) ∧
    decodeTableWord 16 0x0 = some (.rxByte 0) ∧ decodeTableWord 16 0x100 = some .rxErrTransient ∧
    decodeTableWord 16 0x200 = some .rxErrFatal ∧ decodeTableWord 8 0x0 = some (.sinkTake 0) ∧
    decodeTableWord 8 0x80 = some .sinkFail ∧ decodeTableWord 48 0x0 = some (.rd 0 0) ∧
    decodeTableWord 48 0x100000000000 = some (.wr 0 0) := by decide

/-- A delivered INIT is performed by the next step (S1). -/
theorem test_withFetchWord_runs : after (step (State.reset.withFetchWord 32 0x1)) = some enabled := by decide +kernel

/-! ## One step of each instruction (95_test_vectors.md) -/

/-- S1. -/
theorem test_init : field? statusWord .init State.reset = some 0x00000100 := by decide +kernel
/-- S2. -/
theorem test_init_twice : field? (fun t => (statusWord t, t.faultInfo)) .init enabled = some (0x00000300, 0x00000001) := by
  decide +kernel
/-- §2.5. -/
theorem test_crcClear : field? State.crcAcc .crcClear { State.reset with crcAcc := 0xBC } = some 0x00 := by decide +kernel
/-- §2.5. -/
theorem test_crcFeed : field? State.crcAcc (.crcFeed 0x16) State.reset = some 0xD3 := by decide +kernel
/-- §2.5, the residue. -/
theorem test_crcFeed_residue : field? State.crcAcc (.crcFeed 0xBC) { State.reset with crcAcc := 0xBC } = some 0x00 := by
  decide +kernel
/-- §3.3. -/
theorem test_chUnpack :
    field? (fun t => t.cch.toList) .chUnpack { State.reset with cpk := fillBytes 22 [0xFF, 0x07] } =
      some (2047 :: List.replicate 15 0) := by decide +kernel
/-- §3.1, the row `ch[i] = 129*i`. -/
theorem test_chPack :
    field? (fun t => t.cpk.toList) .chPack { State.reset with cch := tabulate 16 fun k => BitVec.ofNat 11 (129 * k) } =
      some [0x00, 0x08, 0x84, 0x40, 0x06, 0x43, 0xA0, 0x42, 0x19, 0xEC, 0x70, 0x08, 0x4C, 0xA4, 0x42, 0x17, 0xCB, 0xE0,
            0x46, 0x3B, 0xFC, 0xF1] := by decide +kernel
/-- S5: the shadow is the snapshot. -/
theorem test_latchCh :
    field? (fun t => t.shCh.toList) .latchCh { State.reset with stCh := Vector.replicate 16 992 } =
      some (List.replicate 16 992) := by decide +kernel
/-- S6. -/
theorem test_latchLink :
    field? (fun t => t.shLink.toList) .latchLink { State.reset with stLink := fillBytes 10 linkBytes } =
      some linkBytes := by decide +kernel
/-- T1. -/
theorem test_sendBattery :
    field? (fun t => (builtFrame t, statusWord t)) (.sendBattery 0xC8) battery = some (batteryFrame, 0x00000110) := by
  decide +kernel
/-- T15. -/
theorem test_sendBattery_badArg :
    field? (fun t => (t.faultCode, t.faultInfo)) (.sendBattery 0x00) battery = some (.badArg, 0x00000008) := by
  decide +kernel
/-- T5's payload, the encoder offset 0. -/
theorem test_gpsPayload :
    gpsPayloadWith 0 gps = [0x1C, 0x40, 0x52, 0x4C, 0x05, 0x17, 0xF4, 0x44, 0x00, 0xFA, 0x23, 0x28, 0x05, 0xDC, 0x0C] := by
  decide +kernel
/-- T8's payload: the encoder offset 1000 wraps. -/
theorem test_gpsPayload_wraps :
    gpsPayloadWith 1000 { enabled with gpsAlt := 0xFFFF } = List.replicate 12 0x00 ++ [0x03, 0xE7, 0x00] := by
  decide +kernel
/-- T12. -/
theorem test_sendRaw :
    field? (fun t => (builtFrame t, t.txLen)) (.sendRaw 0xC8 0x14 10) { enabled with txp := fillBytes 60 linkBytes } =
      some ([0xC8, 0x0C, 0x14] ++ linkBytes ++ [0x93], 14) := by decide +kernel
/-- T17. -/
theorem test_sendRaw_too_long :
    field? (fun t => (t.faultCode, t.faultInfo)) (.sendRaw 0xC8 0x7F 61) enabled = some (.badArg, 0x3D7FC80A) := by
  decide +kernel
/-- F12, its last byte. -/
theorem test_rxByte_link :
    field? (fun t => (t.stLink.toList, statusWord t)) (.rxByte 0x93) (inBody 12 (0x14 :: linkBytes)) =
      some (linkBytes, 0x00000108) := by decide +kernel
/-- F22. -/
theorem test_rxByte_before_init :
    field? (fun t => (statusWord t, t.faultCode, t.faultInfo)) (.rxByte 0xC8) State.reset =
      some (0x00000200, .rxNotEnabled, 0x000000C8) := by decide +kernel
/-- Program P6, step 5. -/
theorem test_rxErrTransient :
    after (exec .rxErrTransient (inBody 12 [0x14, 0x32, 0x35, 0x64])) = some (inBody 12 [0x14, 0x32, 0x35, 0x64]) := by
  decide +kernel
/-- F21. -/
theorem test_rxErrFatal : field? statusWord .rxErrFatal (inBody 24 []) = some 0x00000182 := by decide +kernel
/-- §8, code 9. -/
theorem test_rxErrFatal_twice : field? State.faultInfo .rxErrFatal dead = some 0x00000200 := by decide +kernel
/-- K1. -/
theorem test_sinkTake_all :
    field? (fun t => (statusWord t, txInfoWord t)) (.sinkTake 12) (sending 0) = some (0x00000120, 0x00000C0C) := by
  decide +kernel
/-- K2, its first word. -/
theorem test_sinkTake_part :
    field? (fun t => (statusWord t, txInfoWord t, t.wire)) (.sinkTake 5) (sending 0) =
      some (0x00000110, 0x0000050C, [0xC8, 0x0A, 0x08, 0x00, 0x7E]) := by decide +kernel
/-- As K3. -/
theorem test_sinkFail :
    field? (fun t => (statusWord t, txInfoWord t)) .sinkFail (sending 3) = some (0x00000140, 0x0000030C) := by
  decide +kernel
/-- Program P6, step 4. -/
theorem test_rd : field? State.rdData (.rd 0x010 0) (inBody 12 [0x14, 0x32, 0x35, 0x64]) = some (some 0x00040CC8) := by
  decide +kernel
/-- M3. -/
theorem test_rd_misaligned :
    field? (fun t => (t.faultCode, t.faultInfo)) (.rd 0x002 0) State.reset = some (.badAccess, 0x00000002) := by
  decide +kernel
/-- M8. -/
theorem test_wr : field? State.batCapacity (.wr 0x1A8 0x00FFFFFF) State.reset = some 0xFFFFFF := by decide +kernel
/-- M7. -/
theorem test_wr_reserved :
    field? (fun t => (t.faultCode, t.faultInfo, t.batCapacity)) (.wr 0x1A8 0x01000000) State.reset =
      some (.badValue, 0x000011A8, 0x000000) := by decide +kernel
/-- §2.2, the check value, and §2.3. -/
theorem test_crc8 :
    crc8 [0x31, 0x32, 0x33, 0x34, 0x35, 0x36, 0x37, 0x38, 0x39] = 0xBC ∧ crc8 [0x12, 0x34] = 0xAE ∧
    crc8 (0x16 :: List.replicate 22 0x00) = 0xEF := by decide +kernel

/-! ## Witnesses of the statements' hypotheses -/

theorem witness_DecodeOfEncodeIsTheInstruction :
    (Instr.sendRaw 0xEA 0xFF 255).wellFormed = true ∧ (Instr.sinkTake 127).wellFormed = true ∧
    (Instr.rd 0xFFF 0xFFFFFFFF).wellFormed = true := by decide

theorem witness_DecodedWordIsItsEncoding :
    decode (.cmd 0xFFFFFF0A) = .ok (.sendRaw 0xFF 0xFF 255) ∧ decode (.rxw 0x0FF) = .ok (.rxByte 0xFF) ∧
    decode (.sinkw 0x7F) = .ok (.sinkTake 127) ∧ decode (.bus 0x1FFFFFFFFFFF) = .ok (.wr 0xFFF 0xFFFFFFFF) := by decide

theorem witness_UnassignedOpcodesFault :
    live State.reset ∧ ((0xFFFFFF00 : Word32).extractLsb' 0 8).toNat = 0x00 ∧
    0x0B ≤ ((0x0000000B : Word32).extractLsb' 0 8).toNat ∧ 0x0B ≤ ((0x000000FF : Word32).extractLsb' 0 8).toNat := by
  decide

theorem witness_NonZeroFieldsFault :
    live enabled ∧
    (((0x00000101 : Word32).extractLsb' 0 8).toNat ∈ [0x01, 0x02, 0x04, 0x05, 0x06, 0x07] ∧
      (0x00000101 : Word32).extractLsb' 8 24 ≠ 0) ∧
    (((0x80000007 : Word32).extractLsb' 0 8).toNat ∈ [0x01, 0x02, 0x04, 0x05, 0x06, 0x07] ∧
      (0x80000007 : Word32).extractLsb' 8 24 ≠ 0) ∧
    (((0x00010003 : Word32).extractLsb' 0 8).toNat ∈ [0x03, 0x08, 0x09] ∧ (0x00010003 : Word32).extractLsb' 16 16 ≠ 0) ∧
    (((0x8000C809 : Word32).extractLsb' 0 8).toNat ∈ [0x03, 0x08, 0x09] ∧ (0x8000C809 : Word32).extractLsb' 16 16 ≠ 0) := by
  decide

theorem witness_IllegalRxWordsFault :
    live { State.reset with inputs := [.reader 0x101] } ∧
    { State.reset with inputs := [.reader 0x101] }.inputs = .reader 0x101 :: [] ∧
    (0x101 : BitVec 10).toNat ∈ Set.Icc 0x101 0x1FF ∧ (0x1FF : BitVec 10).toNat ∈ Set.Icc 0x101 0x1FF ∧
    (0x201 : BitVec 10).toNat ∈ Set.Icc 0x201 0x2FF ∧ (0x2FF : BitVec 10).toNat ∈ Set.Icc 0x201 0x2FF ∧
    (0x300 : BitVec 10).toNat ∈ Set.Icc 0x300 0x3FF ∧ (0x3FF : BitVec 10).toNat ∈ Set.Icc 0x300 0x3FF := by
  simp [State.reset]

theorem witness_StepRunsTheDecodedInstruction :
    { enabled with inputs := [.reader 0x0C8] }.inputs = .reader 0x0C8 :: [] ∧
    (Input.reader 0x0C8).codeWord = some (.rxw 0x0C8) ∧ decode (.rxw 0x0C8) = .ok (.rxByte 0xC8) := by decide

theorem witness_CmdWriteRunsItsCommand : decode (.cmd 0x0000C808) = .ok (.sendBattery 0xC8) := by decide

theorem witness_NothingDeliveredNothingChanges : (sending 5).inputs = [] := rfl

theorem witness_ResetRestoresEveryElement :
    { frozen with inputs := [.reset, .reader 0x0C8] }.inputs = .reset :: [.reader 0x0C8] := rfl

theorem witness_RegistersReadZeroAfterReset :
    { frozen with inputs := [.reset] }.inputs = .reset :: [] ∧
    step { frozen with inputs := [.reset] } = .next State.reset ∧
    ∀ off ∈ ([0x004, 0x018, 0x040, 0x07C, 0x080, 0x0A4, 0x100, 0x13C, 0x140, 0x194, 0x1A0, 0x1C4, 0x200, 0x2EC, 0x400,
      0x4FC] : List Offset), readable off :=
  ⟨rfl, rfl, by simp [readable]⟩

/-- A state in the middle of a frame and of a send, a link snapshot held. -/
abbrev working : State :=
  { sending 5 with rxState := .readBody, rxDest := 0xEA, rxLen := 62, rxCnt := 61, stLinkValid := true,
                   stLink := fillBytes 10 linkBytes, inputs := [.reader 0x0C8] }

theorem witness_EveryStepKeepsTheInvariant : Coherent working ∧ (after (step working)).isSome = true :=
  ⟨⟨by decide +kernel, by decide +kernel, by decide +kernel, by decide +kernel, by decide +kernel⟩, by decide +kernel⟩

theorem witness_EveryStepKeepsTheBuiltFrameSound :
    builtFrameOk working ∧ (after (step working)).isSome = true := by decide +kernel

theorem witness_EveryStepKeepsTheWireInOrder :
    wireOk { working with inputs := [.sink 0x07] } ∧
    (after (step { working with inputs := [.sink 0x07] })).isSome = true := by decide +kernel

theorem witness_RdServesExactlyTheReadableOffsets :
    live State.reset ∧ (∀ off ∈ ([0x004, 0x018, 0x400, 0x4FC] : List Offset), readable off) ∧
    ∀ off ∈ ([0x000, 0x002, 0x01C, 0x0A8, 0x500, 0xFFC] : List Offset), ¬ readable off :=
  ⟨rfl, by simp [readable], by simp [readable]⟩

theorem witness_WrOutsideWritableOffsetsFaults :
    live State.reset ∧
    ∀ off ∈ ([0x004, 0x001, 0x0A4, 0x198, 0x2F0, 0x400, 0xFFF] : List Offset), off ≠ 0x000 ∧ ¬ dataOffset off := by
  simp [dataOffset, State.reset]

theorem witness_WrStoresTheDataRegisters :
    live State.reset ∧ (0x7FF : Word32).toNat < 2 ^ 11 ∧ (0xFF : Word32).toNat < 2 ^ 8 ∧ (0xFFFF : Word32).toNat < 2 ^ 16 ∧
    (0xFFFFFF : Word32).toNat < 2 ^ 24 ∧ (0xFFFFFFFF : Word32).toNat < 2 ^ 32 := by decide

/-- The least value that does not fit, at an offset of each width. -/
theorem witness_WrReservedBitsFault :
    live State.reset ∧
    ∀ p ∈ ([(0x100, 0x800), (0x140, 0x100), (0x1A4, 0x10000), (0x1A8, 0x1000000), (0x1AC, 0x100), (0x1C0, 0x10000),
      (0x1C4, 0x100), (0x2EC, 0x100)] : List (Offset × Word32)), dataOffset p.1 ∧ 2 ^ fieldWidth p.1 ≤ p.2.toNat := by
  simp [dataOffset, fieldWidth, State.reset]

theorem witness_WrIsReadBackAndLeavesTheRest :
    live State.reset ∧ dataOffset 0x100 ∧ (0x7FF : Word32).toNat < 2 ^ fieldWidth 0x100 ∧ readable 0x104 ∧
    (0x104 : Offset) ≠ 0x100 ∧
    after (exec (.rd 0x104 0) State.reset) = some { State.reset with rdData := some 0 } := by decide +kernel

theorem witness_CrcClearRestartsTheAccumulator :
    live { State.reset with crcAcc := 0xBC } ∧ (0x01000002 : Word32).extractLsb' 0 8 = 0x02 ∧
    (0x01000002 : Word32).extractLsb' 8 24 ≠ 0 := by decide

theorem witness_CrcFeedFoldsItsByte :
    live { State.reset with crcAcc := 0xBC } ∧ (0x00010003 : Word32).extractLsb' 0 8 = 0x03 ∧
    (0x00010003 : Word32).extractLsb' 16 16 ≠ 0 := by decide

theorem witness_CrcCommandsComputeCrc8 : live { enabled with crcAcc := 0xFF } := rfl

theorem witness_CrcResidueIsZero :
    crc8 ([0x08, 0x00, 0x7E, 0x00, 0x32, 0x00, 0x08, 0x98, 0x57] ++ [0x08]) = 0x00 := by decide +kernel

theorem witness_CrcIsLinear : ([0x12, 0x34] : List Byte).length = ([0x56, 0x78] : List Byte).length := rfl

theorem witness_CrcDetectsEverySingleBitError : 10 < (0x14#8 :: linkBytes).length ∧ 7 < 8 := by decide

theorem witness_ChUnpackUnpacksTheScratch :
    live { State.reset with cpk := fillBytes 22 [0xFF, 0x07] } ∧ (0x00000104 : Word32).extractLsb' 0 8 = 0x04 ∧
    (0x00000104 : Word32).extractLsb' 8 24 ≠ 0 := by decide

theorem witness_ChPackPacksTheScratch :
    live { State.reset with cch := Vector.replicate 16 992 } ∧ (0x00000105 : Word32).extractLsb' 0 8 = 0x05 ∧
    (0x00000105 : Word32).extractLsb' 8 24 ≠ 0 := by decide

theorem witness_SeekTakesOnlySyncBytes :
    receiving enabled ∧ enabled.rxState = .seekSync ∧ (0xC7 : Byte) ≠ 0xC8 ∧ (0xC7 : Byte) ≠ 0xEA := by decide

theorem witness_ReadLenAcceptsTwoToSixtyTwo :
    receiving atLen ∧ atLen.rxState = .readLen ∧ 2 ≤ (2 : Byte).toNat ∧ (62 : Byte).toNat ≤ 62 ∧ (1 : Byte).toNat < 2 ∧
    62 < (63 : Byte).toNat := by decide

theorem witness_ReadBodyAccumulates :
    (inBody 62 (List.replicate 60 0xC8)).rxCnt.toNat < 62 ∧ receiving (inBody 62 (List.replicate 60 0xC8)) ∧
    (inBody 62 (List.replicate 60 0xC8)).rxState = .readBody ∧
    (inBody 62 (List.replicate 60 0xC8)).rxCnt.toNat + 1 ≠ (inBody 62 (List.replicate 60 0xC8)).rxLen.toNat := by
  decide +kernel

/-- The hypotheses that the clauses of LastBodyByteValidatesAndDispatches share. -/
abbrev lastByteOf (s : State) (type : Byte) (payload : List Byte) : Prop :=
  s.rxCnt.toNat < 62 ∧ receiving s ∧ s.rxState = .readBody ∧ s.rxLen.toNat = s.rxCnt.toNat + 1 ∧
  s.rxBuf.toList.take s.rxCnt.toNat = type :: payload

/-- A wrong CRC, a channels frame, a link frame, a frame of another type at the greatest length, a channels type of the
least length. -/
theorem witness_LastBodyByteValidatesAndDispatches :
    (lastByteOf (inBody 12 (0x14 :: linkBytes)) 0x14 linkBytes ∧ (0x92 : Byte) ≠ crc8 (0x14 :: linkBytes)) ∧
    (lastByteOf (inBody 24 (0x16 :: List.replicate 22 0)) 0x16 (List.replicate 22 0) ∧
      0xEF = crc8 (0x16 :: List.replicate 22 0) ∧ (Vector.replicate 22 (0 : Byte)).toList = List.replicate 22 0) ∧
    (lastByteOf (inBody 12 (0x14 :: linkBytes)) 0x14 linkBytes ∧ 0x93 = crc8 (0x14 :: linkBytes) ∧
      (fillBytes 10 linkBytes).toList = linkBytes) ∧
    (lastByteOf (inBody 62 (0x7F :: List.replicate 60 0)) 0x7F (List.replicate 60 0) ∧ (0x7F : Byte) ≠ 0x16 ∧
      (0x7F : Byte) ≠ 0x14) ∧
    (lastByteOf (inBody 2 [0x16]) 0x16 [] ∧ 0xD3 = crc8 [0x16] ∧ ([] : List Byte).length ≠ 22) := by decide +kernel

theorem witness_RxPortFaultsBeforeInitAndAfterDead :
    live State.reset ∧ encode (.rxByte 0xFF) = .rxw 0x0FF ∧ State.reset.en = false ∧ live dead ∧ dead.en = true ∧
    dead.rxDead = true := by decide

theorem witness_TransientErrorChangesNothing :
    receiving (inBody 12 [0x14]) ∧ (live State.reset ∧ State.reset.en = false) ∧
    (live dead ∧ dead.en = true ∧ dead.rxDead = true) := by decide

theorem witness_FatalErrorSetsRxDead :
    field? State.rxDead .latchCh dead = some true ∧ receiving (inBody 12 [0x14]) ∧ (live State.reset ∧ State.reset.en = false) ∧
    (live dead ∧ dead.en = true ∧ dead.rxDead = true) := by decide

theorem witness_NoiseIsSkipped :
    receiving enabled ∧ enabled.rxState = .seekSync ∧
    ∀ b ∈ ([0x00, 0xEE, 0x16, 0x55, 0xC9, 0xEB] : List Byte), b ≠ 0xC8 ∧ b ≠ 0xEA := by decide

theorem witness_ValidFrameIsReceived :
    receiving enabled ∧ enabled.rxState = .seekSync ∧ ((0xEA : Byte) = 0xC8 ∨ (0xEA : Byte) = 0xEA) ∧
    (List.replicate 22 (0xC8 : Byte)).length ≤ 60 ∧ (List.replicate 60 (0x00 : Byte)).length ≤ 60 := by decide

/-- The frame of 95_test_vectors.md §1.2 (0-based), and a body of the least length. -/
theorem witness_CorruptFrameIsDiscarded :
    receiving enabled ∧ enabled.rxState = .seekSync ∧ 2 ≤ (24 : Byte).toNat ∧ (24 : Byte).toNat ≤ 62 ∧
    (let body : List Byte := [0x16, 0, 0, 0, 0, 0, 0x01] ++ List.replicate 16 0 ++ [0xEF]
     body.length = (24 : Byte).toNat ∧ crc8 body.dropLast ≠ body.getLastD 0) ∧
    ([0x16, 0xD2] : List Byte).length = (2 : Byte).toNat ∧
    crc8 ([0x16, 0xD2] : List Byte).dropLast ≠ ([0x16, 0xD2] : List Byte).getLastD 0 ∧
    linkBytes.length ≤ 60 := by decide +kernel

theorem witness_StaleBufferIsUnobservable :
    (∀ k : Fin 62, k.val < (inBody 12 [0x14, 0x32]).rxCnt.toNat →
      (fillBytes 62 [0x14, 0x32, 0xFF, 0xFF])[k] = (inBody 12 [0x14, 0x32]).rxBuf[k]) ∧
    fillBytes 62 [0x14, 0x32, 0xFF, 0xFF] ≠ (inBody 12 [0x14, 0x32]).rxBuf := by decide +kernel

theorem witness_SendBatteryBuildsItsFrame :
    maySend battery ∧ (live State.reset ∧ State.reset.en = false) ∧
    (live (sending 5) ∧ (sending 5).en = true ∧ (sending 5).txBusy = true) ∧ ((0x00 : Byte) ≠ 0xC8 ∧ (0x00 : Byte) ≠ 0xEA) ∧
    ((0x0001C808 : Word32).extractLsb' 0 8 = 0x08 ∧ (0x0001C808 : Word32).extractLsb' 16 16 ≠ 0) := by decide

theorem witness_SendGpsBuildsItsFrame :
    maySend gps ∧ (live State.reset ∧ State.reset.en = false) ∧
    (live (sending 5) ∧ (sending 5).en = true ∧ (sending 5).txBusy = true) ∧ ((0xFF : Byte) ≠ 0xC8 ∧ (0xFF : Byte) ≠ 0xEA) ∧
    ((0x8000C809 : Word32).extractLsb' 0 8 = 0x09 ∧ (0x8000C809 : Word32).extractLsb' 16 16 ≠ 0) := by decide

/-- The sizes of SEND_RAW at their bounds: 60 of a free type, 22 of channels; 61 and 21 are refused. -/
theorem witness_SendRawBuildsItsFrame :
    maySend enabled ∧
    ((60 : Byte).toNat ≤ 60 ∧ (0x7F : Byte) ≠ 0x16 ∧ (0x7F : Byte) ≠ 0x14 ∧ (0x7F : Byte) ≠ 0x08 ∧ (0x7F : Byte) ≠ 0x02) ∧
    ((22 : Byte).toNat ≤ 60 ∧ ((0x16 : Byte) = 0x16 → (22 : Byte).toNat = 22)) ∧
    (live State.reset ∧ State.reset.en = false) ∧ (live (sending 5) ∧ (sending 5).en = true ∧ (sending 5).txBusy = true) ∧
    60 < (61 : Byte).toNat ∧ ¬ ((0x16 : Byte) = 0x16 → (21 : Byte).toNat = 22) := by decide

theorem witness_SinkTakeTakesTheNextBytes :
    live (sending 5) ∧ (sending 5).txBusy = true ∧ (sending 5).txPos.toNat + 6 < (sending 5).txLen.toNat ∧
    (sending 5).txPos.toNat + 7 = (sending 5).txLen.toNat := by decide

theorem witness_SinkFailEndsTheSend : live (sending 11) ∧ (sending 11).txBusy = true := by decide

theorem witness_SinkWordsOutsideItsDutiesAreNoSteps :
    frozen.faulted = true ∧ enabled.txBusy = false ∧
    (live (sending 0) ∧ (sending 0).txBusy = true ∧ (sending 0).txLen.toNat < (sending 0).txPos.toNat + 13) ∧
    0x81 ≤ (0x81 : BitVec 8).toNat ∧ { enabled with inputs := [.sink 0x81] }.inputs = .sink 0x81 :: [] := by decide

/-- Vector T13's payload. -/
theorem witness_BuiltChannelsFrameDecodesToItsChannels :
    let v : Vector Chan 16 := tabulate 16 (BitVec.ofNat 11)
    let s : State := { enabled with txp := fillBytes 60 (pack16 v).toList }
    maySend s ∧ receiving s ∧ s.rxState = .seekSync ∧ s.txp.toList.take 22 = (pack16 v).toList := by decide +kernel

theorem witness_FrameInFlightIsFixed :
    (sending 5).txBusy = true ∧ live (sending 5) ∧ isSend (.sendGps 0x00) ∧
    field? State.faultCode (.sendGps 0x00) (sending 5) = some .txOverlap :=
  ⟨by decide, by decide, .inr (.inl ⟨0x00, rfl⟩), by decide +kernel⟩

theorem witness_InitStartsTheBlockOnce :
    field? State.en .crcClear enabled = some true ∧
    (live State.reset ∧ State.reset.en = false) ∧ (live enabled ∧ enabled.en = true) ∧
    (0x00000101 : Word32).extractLsb' 0 8 = 0x01 ∧ (0x00000101 : Word32).extractLsb' 8 24 ≠ 0 := by decide

theorem witness_LatchChCopiesTheSnapshot :
    live { dead with stCh := Vector.replicate 16 992 } ∧ (0x00000106 : Word32).extractLsb' 0 8 = 0x06 ∧
    (0x00000106 : Word32).extractLsb' 8 24 ≠ 0 := by decide

theorem witness_LatchLinkCopiesTheSnapshot :
    live { dead with stLink := fillBytes 10 linkBytes } ∧ (0x00000107 : Word32).extractLsb' 0 8 = 0x07 ∧
    (0x00000107 : Word32).extractLsb' 8 24 ≠ 0 := by decide

theorem witness_FaultsArePrecise :
    live enabled ∧ field? State.faulted .init enabled = some true ∧
    (after (step { enabled with inputs := [.reader 0x300] })).map State.faulted = some true := by decide +kernel

theorem witness_FrozenBlockKeepsEverything :
    frozen.faulted = true ∧ (after (step { frozen with inputs := [.reader 0x1FF] })).isSome = true ∧
    encode .rxErrFatal = .rxw 0x200 ∧ ¬ readable 0x01C := by decide +kernel

theorem witness_OnlyRxByteChangesFramerAndStore :
    field? State.rxDead .rxErrFatal (inBody 12 [0x14]) = some true ∧ (inBody 12 [0x14]).rxDead = false ∧
    ∀ d, Instr.rxErrFatal ≠ .rxByte d :=
  ⟨by decide +kernel, rfl, fun _ => nofun⟩

/-- For each clause an instruction that changes its element. -/
theorem witness_ElementsHaveTheirWriters :
    field? (fun t => t.shCh[0]) (.wr 0x000 0x06) { enabled with stCh := Vector.replicate 16 1 } = some 1 ∧
    field? (fun t => t.shLink[0]) .latchLink { enabled with stLink := fillBytes 10 linkBytes } = some 0x32 ∧
    field? State.crcAcc (.crcFeed 0x01) enabled = some 0xD5 ∧
    field? (fun t => t.txBuf[0]) (.sendBattery 0xC8) battery = some 0xC8 ∧
    field? State.en .init State.reset = some true ∧
    field? State.rdData (.rd 0x004 0) enabled = some (some 0x00000100) ∧
    field? State.wire (.sinkTake 1) (sending 0) = some [0xC8] := by decide +kernel

end Sys2Proof.Tests
end

section
/-! PROOFS. The idle step (10_state.md R22; log entry 12). -/

namespace Sys2Proof.Machine

/-- With no word waiting there is none to take. -/
theorem takeInput_nil {s : State} (h : s.inputs = []) : takeInput s = none := by
  simp [takeInput, h]

end Sys2Proof.Machine

namespace Sys2Proof.Claims

open Sys2Proof.Machine

/-- Settles O9: with no word to take a step is the idle one. -/
theorem nothingDeliveredNothingChanges : Obligations.NothingDeliveredNothingChanges := by
  intro s h
  rw [step, takeInput_nil h]
  rfl

end Sys2Proof.Claims
end

section
/-! PROOFS. RD: the status words as the numbers their fields spell (10_state.md R44 to R48), and what RD of a readable
register returns (20_memory.md R66). -/

namespace Sys2Proof

/-- Bit `k` of a word is a flag when the word's digit there is the flag's number. -/
theorem getLsbD_of_digit {n : Nat} {x : BitVec n} {k : Nat} {b : Bool} (h : x.toNat / 2 ^ k % 2 = b.toNat) :
    x.getLsbD k = b := by
  rw [getLsbD_eq_decide, h]
  cases b <;> rfl

/-- A field of a word is `y` when the word's digits there are `y`'s number. -/
theorem extract_of_digits {n start len : Nat} {x : BitVec n} {y : BitVec len}
    (h : x.toNat / 2 ^ start % 2 ^ len = y.toNat) : x.extractLsb' start len = y :=
  BitVec.eq_of_toNat_eq ((toNat_extract x start len).trans h)

/-- A word below `2 ^ start` has only zero bits from `start` on. -/
theorem extract_above {n start : Nat} {x : BitVec n} (h : x.toNat < 2 ^ start) (len : Nat) :
    x.extractLsb' start len = 0 :=
  extract_of_digits (by simp [Nat.div_eq_of_lt h])

end Sys2Proof

namespace Sys2Proof.Machine

/-- STATUS is the number its nine fields spell (R44). -/
theorem statusWord_toNat (s : State) :
    (statusWord s).toNat = s.faulted.toNat * 2 ^ 9 + s.en.toNat * 2 ^ 8 + s.rxDead.toNat * 2 ^ 7 +
      (txResultBits s.txResult).toNat * 2 ^ 5 + s.txBusy.toNat * 2 ^ 4 + s.stLinkValid.toNat * 2 ^ 3 +
      s.stChValid.toNat * 2 ^ 2 + (rxStateBits s.rxState).toNat := by
  rw [statusWord, BitVec.toNat_setWidth_of_le (by decide)]
  simp only [toNat_append_add, flagBit, BitVec.toNat_ofBool]
  omega

/-- RX_DEBUG is the number its three fields spell (R46). -/
theorem rxDebugWord_toNat (s : State) :
    (rxDebugWord s).toNat = s.rxCnt.toNat * 2 ^ 16 + s.rxLen.toNat * 2 ^ 8 + s.rxDest.toNat := by
  rw [rxDebugWord, BitVec.toNat_setWidth_of_le (by decide), toNat_append_add, toNat_append_add]
  omega

/-- TX_INFO is the number its two fields spell (R48). -/
theorem txInfoWord_toNat (s : State) : (txInfoWord s).toNat = s.txPos.toNat * 2 ^ 8 + s.txLen.toNat := by
  rw [txInfoWord, BitVec.toNat_setWidth_of_le (by decide), toNat_append_add, toNat_append_add, BitVec.toNat_zero]
  omega

/-- Every field of STATUS at its place, from bit 0 up (R44). -/
theorem statusWord_fields (s : State) :
    (statusWord s).extractLsb' 0 2 = rxStateBits s.rxState ∧ (statusWord s).getLsbD 2 = s.stChValid ∧
    (statusWord s).getLsbD 3 = s.stLinkValid ∧ (statusWord s).getLsbD 4 = s.txBusy ∧
    (statusWord s).extractLsb' 5 2 = txResultBits s.txResult ∧ (statusWord s).getLsbD 7 = s.rxDead ∧
    (statusWord s).getLsbD 8 = s.en ∧ (statusWord s).getLsbD 9 = s.faulted ∧
    (statusWord s).extractLsb' 10 22 = 0 := by
  have hn := statusWord_toNat s
  have hch := s.stChValid.toNat_le
  have hlink := s.stLinkValid.toNat_le
  have hbusy := s.txBusy.toNat_le
  have hdead := s.rxDead.toNat_le
  have hen := s.en.toNat_le
  have hfaulted := s.faulted.toNat_le
  exact ⟨extract_of_digits (by omega), getLsbD_of_digit (by omega), getLsbD_of_digit (by omega),
    getLsbD_of_digit (by omega), extract_of_digits (by omega), getLsbD_of_digit (by omega),
    getLsbD_of_digit (by omega), getLsbD_of_digit (by omega), extract_above (by omega) 22⟩

/-- Every field of RX_DEBUG at its place, from bit 0 up (R46). -/
theorem rxDebugWord_fields (s : State) :
    (rxDebugWord s).extractLsb' 0 8 = s.rxDest ∧ (rxDebugWord s).extractLsb' 8 8 = s.rxLen ∧
    (rxDebugWord s).extractLsb' 16 6 = s.rxCnt ∧ (rxDebugWord s).extractLsb' 22 10 = 0 := by
  have hn := rxDebugWord_toNat s
  exact ⟨extract_of_digits (by omega), extract_of_digits (by omega), extract_of_digits (by omega),
    extract_above (by omega) 10⟩

/-- Every field of TX_INFO at its place, from bit 0 up (R48). -/
theorem txInfoWord_fields (s : State) :
    (txInfoWord s).extractLsb' 0 7 = s.txLen ∧ (txInfoWord s).getLsbD 7 = false ∧
    (txInfoWord s).extractLsb' 8 7 = s.txPos ∧ (txInfoWord s).extractLsb' 15 17 = 0 := by
  have hn := txInfoWord_toNat s
  exact ⟨extract_of_digits (by omega), getLsbD_of_digit (by rw [Bool.toNat_false]; omega),
    extract_of_digits (by omega), extract_above (by omega) 17⟩

/-- FAULT is the number R260 gives the recorded code (R45). -/
theorem faultWord_eq (s : State) : faultWord s = BitVec.ofNat 32 (Claims.codeNumber s.faultCode) := by
  unfold faultWord
  cases s.faultCode <;> rfl

/-- RD of a readable register at its own offset (R43, R66). -/
theorem exec_rd_regOffset {r : Reg} (ha : regAccess r ≠ .wo) (ignored : Word32) (s : State) :
    exec (.rd (BitVec.ofNat 12 (regOffset r)) ignored) s = .next { s with rdData := some (readReg r s) } :=
  execRd_of_regAt (regAt_regOffset r) ha ignored s

/-- RD of a register that shows the element `x` returns `x`, zero-extended (R66). -/
theorem rdGives_of_element (r : Reg) (ha : regAccess r ≠ .wo) {w : Nat} {x : BitVec w} {s : State}
    (hx : readReg r s = x.setWidth 32) (ignored : Word32) : Claims.rdGives s ignored (regOffset r) x.toNat := by
  rw [Claims.rdGives, exec_rd_regOffset ha, hx, BitVec.ofNat_toNat]

end Sys2Proof.Machine

namespace Sys2Proof.Claims

open Sys2Proof.Machine

/-- Settles O16: each status register is read at its own offset, and its word holds its fields at their places. -/
theorem rdReturnsTheStatusWords : Obligations.RdReturnsTheStatusWords := by
  intro s ignored
  have rd (r : Reg) (ha : regAccess r ≠ .wo) := exec_rd_regOffset ha ignored s
  refine ⟨⟨statusWord s, rd .status nofun, ?_⟩, ?_, rd .faultInfo nofun,
    ⟨rxDebugWord s, rd .rxDebug nofun, rxDebugWord_fields s⟩,
    ⟨s.crcAcc.setWidth 32, rd .crcAcc nofun, BitVec.toNat_setWidth_of_le (by decide)⟩,
    ⟨txInfoWord s, rd .txInfo nofun, txInfoWord_fields s⟩⟩
  · obtain ⟨hrx, hch, hlink, hbusy, hres, hdead, hen, hfaulted, hzero⟩ := statusWord_fields s
    refine ⟨?_, hch, hlink, hbusy, ?_, hdead, hen, hfaulted, hzero⟩
    · rw [hrx]
      cases s.rxState <;> rfl
    · rw [hres]
      cases s.txResult <;> rfl
  · rw [← faultWord_eq]
    exact rd .fault nofun

/-- Settles O17: each of these registers shows one element, zero-extended to the port's 32 bits. -/
theorem rdReturnsTheDataRegisters : Obligations.RdReturnsTheDataRegisters := by
  intro s ignored
  have rd (r : Reg) (ha : regAccess r ≠ .wo) {w : Nat} {x : BitVec w} (hx : readReg r s = x.setWidth 32) :=
    rdGives_of_element r ha hx ignored
  exact ⟨fun k => rd (.chShadow k) nofun rfl, fun k => rd (.linkShadow k) nofun rfl,
    fun k => rd (.codecCh k) nofun rfl, fun k => rd (.codecPk k) nofun rfl,
    rd .batVoltage nofun rfl, rd .batCurrent nofun rfl, rd .batCapacity nofun rfl, rd .batRemaining nofun rfl,
    rd .gpsLat nofun (BitVec.setWidth_eq _).symm, rd .gpsLon nofun (BitVec.setWidth_eq _).symm,
    rd .gpsGspd nofun rfl, rd .gpsHeading nofun rfl, rd .gpsAlt nofun rfl, rd .gpsSats nofun rfl,
    fun k => rd (.txPayload k) nofun rfl, fun k => rd (.txBuf k) nofun rfl⟩

end Sys2Proof.Claims
end

section
/-! PROOFS. Frames of the framer's and the sink's transitions (42_rx_framer.md R162 to R169, 43_tx_builder.md R208). -/

namespace Sys2Proof.Machine

theorem rxSeek_frame (d : Byte) (s : State) :
    rxSeek d s = { s with rxState := (rxSeek d s).rxState, rxDest := (rxSeek d s).rxDest } := by
  unfold rxSeek
  split <;> rfl

theorem rxReadLen_frame (d : Byte) (s : State) :
    rxReadLen d s = { s with
      rxState := (rxReadLen d s).rxState, rxDest := (rxReadLen d s).rxDest, rxLen := (rxReadLen d s).rxLen,
      rxCnt := (rxReadLen d s).rxCnt } := by
  unfold rxReadLen
  split <;> rfl

/-- Storing a byte counts it (R164). -/
theorem rxStore_rxCnt_toNat {s : State} (h : s.rxCnt.toNat < 62) (d : Byte) :
    (rxStore d s).rxCnt.toNat = s.rxCnt.toNat + 1 :=
  BitVec.toNat_add_of_lt (show s.rxCnt.toNat + 1 < 2 ^ 6 by omega)

/-- An incomplete body waits for its next byte (R164). -/
theorem rxComplete_of_incomplete {s : State} (h : s.rxCnt.toNat ≠ s.rxLen.toNat) : rxComplete s = s :=
  if_neg h

/-- A complete body is validated in the step that completes it (R164). -/
theorem rxComplete_eq_of_complete {s : State} (h : s.rxCnt.toNat = s.rxLen.toNat) :
    rxComplete s = toSeek (rxValidate { s with rxState := .validate }) :=
  if_pos h

/-- A complete body takes the framer back to its start and replaces at most one snapshot, whole (R164 to R169). -/
theorem rxComplete_of_complete {s : State} (h : s.rxCnt.toNat = s.rxLen.toNat) :
    rxComplete s = toSeek s ∨
    (∃ v, rxComplete s = toSeek { s with stCh := v, stChValid := true }) ∨
    (∃ v, rxComplete s = toSeek { s with stLink := v, stLinkValid := true }) := by
  rw [rxComplete_eq_of_complete h]
  rcases rxValidate_cases { s with rxState := .validate } with hv | ⟨v, hv⟩ | ⟨v, hv⟩ <;> rw [hv]
  · exact .inl rfl
  · exact .inr (.inl ⟨v, rfl⟩)
  · exact .inr (.inr ⟨v, rfl⟩)

theorem rxComplete_frame (s : State) :
    rxComplete s = { s with
      rxState := (rxComplete s).rxState, rxDest := (rxComplete s).rxDest, rxLen := (rxComplete s).rxLen,
      rxCnt := (rxComplete s).rxCnt, stCh := (rxComplete s).stCh, stChValid := (rxComplete s).stChValid,
      stLink := (rxComplete s).stLink, stLinkValid := (rxComplete s).stLinkValid } := by
  by_cases h : s.rxCnt.toNat = s.rxLen.toNat
  · rcases rxComplete_of_complete h with hv | ⟨v, hv⟩ | ⟨v, hv⟩ <;> rw [hv] <;> rfl
  · rw [rxComplete_of_incomplete h]

theorem endSend_frame (s : State) :
    endSend s = { s with txBusy := (endSend s).txBusy, txResult := (endSend s).txResult } := by
  unfold endSend
  split <;> rfl

end Sys2Proof.Machine
end

section
/-! PROOFS. The invariant `Coherent`, part by part: each part follows from the few effects that write its elements, and
every other effect leaves it as it was (10_state.md R23 to R45, 43_tx_builder.md R211, 44_store_api.md R243). -/

namespace Sys2Proof.Safety

open Sys2Proof.Machine

variable {s t : State} {i : Instr}

/-! ### The framer -/

theorem framerOk_toSeek (s : State) : framerOk (toSeek s) := by
  simp [framerOk, toSeek]

/-- In READ_BODY only the body's own clause of the framer's invariant speaks. -/
theorem framerOk_iff_of_readBody (hs : s.rxState = .readBody) :
    framerOk s ↔ isSync s.rxDest = true ∧ 2 ≤ s.rxLen.toNat ∧ s.rxLen.toNat ≤ 62 ∧
      s.rxCnt.toNat < s.rxLen.toNat := by
  simp [framerOk, hs]

theorem framerOk_rxSeek (h : framerOk s) (hs : s.rxState = .seekSync) (d : Byte) : framerOk (rxSeek d s) := by
  unfold rxSeek
  split
  · next hd =>
    obtain ⟨-, hseek, -, -⟩ := h
    obtain ⟨-, hlen, hcnt⟩ := hseek hs
    simp [framerOk, hd, hlen, hcnt]
  · exact h

theorem framerOk_rxReadLen (h : framerOk s) (hs : s.rxState = .readLen) (d : Byte) : framerOk (rxReadLen d s) := by
  unfold rxReadLen
  split
  · next hd =>
    obtain ⟨hmin, hmax⟩ := hd
    obtain ⟨-, -, hread, -⟩ := h
    obtain ⟨hdest, -, -⟩ := hread hs
    exact (framerOk_iff_of_readBody rfl).2 ⟨hdest, hmin, hmax, Nat.lt_of_lt_of_le Nat.zero_lt_two hmin⟩
  · exact framerOk_toSeek s

/-- A stored body byte advances the count towards the length; the last one takes the framer back to its start. -/
theorem framerOk_rxBody (h : framerOk s) (hs : s.rxState = .readBody) (d : Byte) :
    framerOk (rxComplete (rxStore d s)) := by
  obtain ⟨hdest, hmin, hmax, hcnt⟩ := (framerOk_iff_of_readBody hs).1 h
  by_cases hc : (rxStore d s).rxCnt.toNat = (rxStore d s).rxLen.toNat
  · rcases rxComplete_of_complete hc with hv | ⟨v, hv⟩ | ⟨v, hv⟩ <;> rw [hv] <;> exact framerOk_toSeek _
  · rw [rxComplete_of_incomplete hc]
    have hnext : (rxStore d s).rxCnt.toNat < s.rxLen.toNat := by
      rw [rxStore_rxCnt_toNat (hcnt.trans_le hmax)] at hc ⊢
      exact Nat.lt_of_le_of_ne hcnt hc
    exact (framerOk_iff_of_readBody (s := rxStore d s) hs).2 ⟨hdest, hmin, hmax, hnext⟩

theorem framerOk_of_effect (e : Effect s i t) (h : framerOk s) : framerOk t := by
  induction e with
  | rxSeek d _ _ _ hs => exact framerOk_rxSeek h hs d
  | rxReadLen d _ _ _ hs => exact framerOk_rxReadLen h hs d
  | rxBody d _ _ _ hs _ => exact framerOk_rxBody h hs d
  | sinkTake => rw [endSend_frame]; exact h
  | wrData => rw [writeReg_frame]; exact h
  | wrCmd _ _ _ _ _ _ ih => exact ih
  | _ => exact h

/-! ### The transmitter -/

/-- A frame built from a payload of at most 60 bytes starts a send within `tx_buf`. -/
theorem txOk_startTx {p : List Byte} (hp : p.length ≤ Config.txPayloadMax) (d ty : Byte) (s : State) :
    txOk (startTx (buildFrame d ty p) s) := by
  have hp : p.length ≤ 60 := hp
  have hlen : (buildFrame d ty p).length = p.length + 4 := by simp [buildFrame]
  have htx : (startTx (buildFrame d ty p) s).txLen.toNat = p.length + 4 := by
    rw [startTx_txLen, hlen, BitVec.toNat_ofNat]
    omega
  have htail (k : Fin 64) (hk : (startTx (buildFrame d ty p) s).txLen.toNat ≤ k.val) :
      (startTx (buildFrame d ty p) s).txBuf[k] = 0 := by
    rw [startTx_txBuf, Fin.getElem_fin, fillBytes_getElem _ _ _ k.isLt]
    exact List.getD_eq_default _ _ (by omega)
  have hpos : (startTx (buildFrame d ty p) s).txPos.toNat < (startTx (buildFrame d ty p) s).txLen.toNat := by
    rw [startTx_txPos, htx]
    exact Nat.succ_pos _
  exact ⟨.inr (by omega), hpos.le, htail, fun _ => ⟨hpos, rfl⟩, nofun, nofun, nofun⟩

/-- Bytes taken move the position within the frame; the last ones end the send with OK. -/
theorem txOk_sinkTake (h : txOk s) (hb : s.txBusy = true) {n : Nat} (hn : s.txPos.toNat + n ≤ s.txLen.toNat) :
    txOk (endSend { s with txPos := BitVec.ofNat 7 (s.txPos.toNat + n), wire := s.wire ++ offered n s }) := by
  obtain ⟨hlen, -, htail, hbusy, -, -, -⟩ := h
  obtain ⟨-, hres⟩ := hbusy hb
  have hpos : (BitVec.ofNat 7 (s.txPos.toNat + n)).toNat ≤ s.txLen.toNat := by
    rw [BitVec.toNat_ofNat]
    omega
  unfold endSend
  split
  · next hend => exact ⟨hlen, hpos, htail, nofun, nofun, fun _ => hend, nofun⟩
  · next hend =>
    have hlt := Nat.lt_of_le_of_ne hpos fun he => hend (BitVec.eq_of_toNat_eq he)
    exact ⟨hlen, hpos, htail, fun _ => ⟨hlt, hres⟩, fun hf => absurd (hb.symm.trans hf) nofun,
      fun hok => absurd (hres.symm.trans hok) nofun, fun _ => hlt⟩

/-- A failed send stops where it was, with bytes left. -/
theorem txOk_sinkFail (h : txOk s) (hb : s.txBusy = true) :
    txOk { s with txBusy := false, txResult := .fail } := by
  obtain ⟨hlen, hpos, htail, hbusy, -, -, -⟩ := h
  obtain ⟨hlt, -⟩ := hbusy hb
  exact ⟨hlen, hpos, htail, nofun, nofun, nofun, fun _ => hlt⟩

theorem txOk_of_effect (e : Effect s i t) (h : txOk s) : txOk t := by
  induction e with
  | sendBattery d => exact txOk_startTx (by simp [batteryPayload, be16, be24, Config.txPayloadMax]) d _ s
  | sendGps d => exact txOk_startTx (by simp [gpsPayload, gpsPayloadWith, be16, be32, Config.txPayloadMax]) d _ s
  | sendRaw d ty n => exact txOk_startTx (by simp [Config.txPayloadMax]) d ty s
  | sinkTake n _ hb hn => exact txOk_sinkTake h hb hn
  | sinkFail _ hb => exact txOk_sinkFail h hb
  | rxSeek d => rw [rxSeek_frame]; exact h
  | rxReadLen d => rw [rxReadLen_frame]; exact h
  | rxBody d => rw [rxComplete_frame]; exact h
  | wrData => rw [writeReg_frame]; exact h
  | wrCmd _ _ _ _ _ _ ih => exact ih
  | _ => exact h

/-! ### The fault record -/

/-- A recorded fault has a code (R260). -/
theorem faultOk_faultEntry {code : FaultCode} (hc : code ≠ .none) (info : Word32) (s : State) :
    faultOk (faultEntry code info s) :=
  ⟨nofun, fun _ => hc⟩

theorem faultOk_of_effect (e : Effect s i t) (h : faultOk s) : faultOk t := by
  induction e with
  | fault _ code info _ hc => exact faultOk_faultEntry hc info s
  | rxSeek d => rw [rxSeek_frame]; exact h
  | rxReadLen d => rw [rxReadLen_frame]; exact h
  | rxBody d => rw [rxComplete_frame]; exact h
  | sinkTake => rw [endSend_frame]; exact h
  | wrData => rw [writeReg_frame]; exact h
  | wrCmd _ _ _ _ _ _ ih => exact ih
  | _ => exact h

/-! ### The enable -/

/-- Once INIT has run its invariant says nothing more. -/
theorem enableOk_of_en (he : t.en = true) : enableOk t :=
  fun hf => absurd (he.symm.trans hf) nofun

theorem enableOk_of_effect (e : Effect s i t) (h : enableOk s) : enableOk t := by
  induction e with
  | init => exact enableOk_of_en rfl
  | sendBattery _ _ he | sendGps _ _ he | sendRaw _ _ _ _ he | rxErrFatal _ he => exact enableOk_of_en he
  | rxSeek d _ he => rw [rxSeek_frame]; exact enableOk_of_en he
  | rxReadLen d _ he => rw [rxReadLen_frame]; exact enableOk_of_en he
  | rxBody d _ he => rw [rxComplete_frame]; exact enableOk_of_en he
  | sinkTake => rw [endSend_frame]; exact h
  | wrData => rw [writeReg_frame]; exact h
  | wrCmd _ _ _ _ _ _ ih => exact ih
  | _ => exact h

/-! ### The store -/

/-- The end of a body keeps a snapshot, or replaces it and sets its presence flag. -/
theorem storeOk_rxComplete (h : storeOk s) : storeOk (rxComplete s) := by
  by_cases hc : s.rxCnt.toNat = s.rxLen.toNat
  · obtain ⟨hch, hlink⟩ := h
    rcases rxComplete_of_complete hc with hv | ⟨v, hv⟩ | ⟨v, hv⟩ <;> rw [hv]
    · exact ⟨hch, hlink⟩
    · exact ⟨nofun, hlink⟩
    · exact ⟨hch, nofun⟩
  · rwa [rxComplete_of_incomplete hc]

theorem storeOk_of_effect (e : Effect s i t) (h : storeOk s) : storeOk t := by
  induction e with
  | rxBody d => exact storeOk_rxComplete h
  | rxSeek d => rw [rxSeek_frame]; exact h
  | rxReadLen d => rw [rxReadLen_frame]; exact h
  | sinkTake => rw [endSend_frame]; exact h
  | wrData => rw [writeReg_frame]; exact h
  | wrCmd _ _ _ _ _ _ ih => exact ih
  | _ => exact h

/-! ### The whole invariant -/

theorem coherent_of_effect (e : Effect s i t) (h : Coherent s) : Coherent t := by
  obtain ⟨hframer, htx, hfault, hen, hstore⟩ := h
  exact ⟨framerOk_of_effect e hframer, txOk_of_effect e htx, faultOk_of_effect e hfault, enableOk_of_effect e hen,
    storeOk_of_effect e hstore⟩

theorem coherent_faultEntry (h : Coherent s) {code : FaultCode} (hc : code ≠ .none) (info : Word32) :
    Coherent (faultEntry code info s) := by
  obtain ⟨hframer, htx, -, hen, hstore⟩ := h
  exact ⟨hframer, htx, faultOk_faultEntry hc info s, hen, hstore⟩

theorem coherent_reset : Coherent State.reset := by
  simp [Coherent, framerOk, txOk, faultOk, enableOk, storeOk, State.reset]

/-- After reset the invariant holds, whatever the block was before (R300). -/
theorem coherent_resetBlock (s : State) : Coherent (resetBlock s) := coherent_reset

theorem coherent_of_step (hs : step s = .next t) (h : Coherent s) : Coherent t := by
  rcases step_cases hs with ⟨-, rfl⟩ | ⟨inp, rest, -, hcase⟩
  · exact h
  · have hrest : Coherent { s with inputs := rest } := h
    rcases hcase with ⟨-, rfl⟩ | ⟨c, i, -, -, e⟩ | rfl | ⟨-, code, info, hc, rfl⟩
    · exact coherent_resetBlock _
    · exact coherent_of_effect e hrest
    · exact hrest
    · exact coherent_faultEntry hrest hc info

end Sys2Proof.Safety

namespace Sys2Proof.Claims

/-- Settles O13, by the cases of a step: each of the invariant's five parts is kept by every effect. -/
theorem everyStepKeepsTheInvariant : Obligations.EveryStepKeepsTheInvariant :=
  fun _ _ h hs => Safety.coherent_of_step hs h

end Sys2Proof.Claims
end

section
/-! PROOFS. Who writes which element: every effect either leaves the seven elements of R23, R25, R36, R40 and log entries 4
and 5 as they were, or is the effect of the one operation that writes one of them. -/

namespace Sys2Proof.Claims

open Sys2Proof.Machine

variable {s t : State} {i : Instr} {w : Word32}

theorem performed_of_decodeCmd (h : decodeCmd w = .ok i) : performed i = i := by
  rcases decodeCmd_isCommand h with rfl | rfl | ⟨a, rfl⟩ | rfl | rfl | rfl | rfl | ⟨d, rfl⟩ | ⟨d, rfl⟩ | ⟨d, ty, n, rfl⟩ <;>
    rfl

/-- A write to CMD performs the command its word decodes to (R92). -/
theorem performed_cmdWrite (h : decodeCmd w = .ok i) : performed (.wr 0x000 w) = i := by
  simp [performed, decode, h]

/-- Each of the seven elements changes only by its writer. -/
structure WritesOwn (i : Instr) (s t : State) : Prop where
  shCh : t.shCh ≠ s.shCh → performed i = .latchCh ∧ t.shCh = s.stCh
  shLink : t.shLink ≠ s.shLink → performed i = .latchLink ∧ t.shLink = s.stLink
  crcAcc : t.crcAcc ≠ s.crcAcc → performed i = .crcClear ∨ ∃ a, performed i = .crcFeed a
  txBuf : t.txBuf ≠ s.txBuf → isSend (performed i) ∧ s.txBusy = false
  en : t.en ≠ s.en → performed i = .init ∧ t.en = true
  rdData : t.rdData ≠ s.rdData → ∃ off ignored, i = .rd off ignored
  wire : t.wire ≠ s.wire → ∃ n, i = .sinkTake n

/-- A started send writes `tx_buf` alone of the seven. -/
theorem writesOwn_startTx (hi : isSend (performed i)) (hb : s.txBusy = false) (frame : List Byte) :
    WritesOwn i s (startTx frame s) := by
  constructor <;> simp [hi, hb]

/-- What a command writes on its own it writes when its word is written to CMD. -/
theorem WritesOwn.cmdWrite (hd : decodeCmd w = .ok i) (h : WritesOwn i s t) : WritesOwn (.wr 0x000 w) s t := by
  have hp : performed (.wr 0x000 w) = performed i := (performed_cmdWrite hd).trans (performed_of_decodeCmd hd).symm
  have hcmd := decodeCmd_isCommand hd
  refine ⟨hp ▸ h.shCh, hp ▸ h.shLink, hp ▸ h.crcAcc, hp ▸ h.txBuf, hp ▸ h.en, fun hne => ?_, fun hne => ?_⟩
  · obtain ⟨off, ignored, rfl⟩ := h.rdData hne
    simp at hcmd
  · obtain ⟨n, rfl⟩ := h.wire hne
    simp at hcmd

theorem writesOwn_of_effect (e : Effect s i t) : WritesOwn i s t := by
  induction e with
  | latchCh | latchLink | crcClear | crcFeed | init | rd => constructor <;> simp [performed]
  | sendBattery d _ _ hb => exact writesOwn_startTx (.inl ⟨d, rfl⟩) hb _
  | sendGps d _ _ hb => exact writesOwn_startTx (.inr (.inl ⟨d, rfl⟩)) hb _
  | sendRaw d ty n _ _ hb => exact writesOwn_startTx (.inr (.inr ⟨d, ty, n, rfl⟩)) hb _
  | sinkTake => rw [endSend_frame]; constructor <;> simp
  | rxSeek d => rw [rxSeek_frame]; constructor <;> simp
  | rxReadLen d => rw [rxReadLen_frame]; constructor <;> simp
  | rxBody d => rw [rxComplete_frame]; constructor <;> simp [rxStore]
  | wrData => rw [writeReg_frame]; constructor <;> simp
  | wrCmd w i t _ hd _ ih => exact ih.cmdWrite hd
  | same | fault | chUnpack | chPack | rxErrFatal | sinkFail => constructor <;> simp

/-- Settles O59, by the cases of an instruction's effect. -/
theorem elementsHaveTheirWriters : Obligations.ElementsHaveTheirWriters := by
  intro i s t h
  obtain ⟨hshCh, hshLink, hcrcAcc, htxBuf, hen, hrdData, hwire⟩ := writesOwn_of_effect (exec_effect h)
  exact ⟨hshCh, hshLink, hcrcAcc, htxBuf, hen, hrdData, hwire⟩

end Sys2Proof.Claims
end

section
/-! PROOFS. The elements of `rx_buf` at and beyond `rx_cnt` are read by nothing (10_state.md R32): every operation answers
alike on two states that differ only there, because the framer reads a body only when `rx_cnt` has reached its end. -/

namespace Sys2Proof.Claims

open Sys2Proof.Machine

/-- The state with other bytes in `rx_buf`. -/
def withRxBuf (b : Vector Byte 62) (s : State) : State := { s with rxBuf := b }

/-- The bytes `b` are those received so far: they differ from `rx_buf` in its stale part only. -/
def AgreesWithBody (b : Vector Byte 62) (s : State) : Prop :=
  ∀ k : Fin 62, k.val < s.rxCnt.toNat → b[k] = s.rxBuf[k]

variable {s : State} {b : Vector Byte 62}

/-! ### Outcomes that differ in the stale part -/

theorem sameButStale_next (h : AgreesWithBody b s) : sameButStale (.next s) (.next (withRxBuf b s)) :=
  .inl ⟨s, withRxBuf b s, rfl, rfl, rfl, h⟩

theorem sameButStale_refl (r : Result) : sameButStale r r := by
  cases r with
  | next s => exact sameButStale_next (b := s.rxBuf) fun _ _ => rfl
  | fault e => exact .inr (.inl ⟨e, rfl, rfl⟩)
  | refused e => exact .inr (.inr ⟨e, rfl, rfl⟩)

theorem sameButStale_ite {c : Prop} [Decidable c] {p p' q q' : Result} (hp : c → sameButStale p p')
    (hq : ¬ c → sameButStale q q') : sameButStale (if c then p else q) (if c then p' else q') := by
  split
  · next hc => exact hp hc
  · next hc => exact hq hc

/-! ### The shared checks -/

theorem unlessFrozen_sameButStale (h : AgreesWithBody b s) {k k' : Result} (hk : sameButStale k k') :
    sameButStale (unlessFrozen s k) (unlessFrozen (withRxBuf b s) k') :=
  sameButStale_ite (fun _ => sameButStale_next h) fun _ => hk

theorem raise_sameButStale (h : AgreesWithBody b s) (code : FaultCode) (info : Word32) :
    sameButStale (raise code info s) (raise code info (withRxBuf b s)) :=
  sameButStale_next (s := faultEntry code info s) h

theorem rxChecked_sameButStale (h : AgreesWithBody b s) (w : BitVec 10) {k k' : Result} (hk : sameButStale k k') :
    sameButStale (rxChecked w s k) (rxChecked w (withRxBuf b s) k') :=
  unlessFrozen_sameButStale h <|
    sameButStale_ite (fun _ => raise_sameButStale h _ _) fun _ =>
      sameButStale_ite (fun _ => raise_sameButStale h _ _) fun _ => hk

theorem sendFrame_sameButStale (h : AgreesWithBody b s) (w : Word32) (d ty : Byte) (n : Nat) (p : List Byte) :
    sameButStale (sendFrame w d ty n p s) (sendFrame w d ty n p (withRxBuf b s)) :=
  unlessFrozen_sameButStale h <|
    sameButStale_ite (fun _ => raise_sameButStale h _ _) fun _ =>
      sameButStale_ite (fun _ => raise_sameButStale h _ _) fun _ =>
        sameButStale_ite (fun _ => raise_sameButStale h _ _) fun _ =>
          sameButStale_next (s := startTx (buildFrame d ty p) s) h

theorem whileSending_sameButStale {k k' : Result} (hk : sameButStale k k') :
    sameButStale (whileSending s k) (whileSending (withRxBuf b s) k') :=
  sameButStale_ite (fun _ => hk) fun _ => sameButStale_refl _

theorem illegalRxWord_sameButStale (h : AgreesWithBody b s) (w : BitVec 10) :
    sameButStale (illegalRxWord w s) (illegalRxWord w (withRxBuf b s)) :=
  unlessFrozen_sameButStale h (raise_sameButStale h _ _)

/-! ### The framer -/

/-- A framer that holds no body byte has nothing but stale bytes. -/
theorem agreesWithBody_of_rxCnt_zero (h : s.rxCnt = 0) : AgreesWithBody b s :=
  fun k hk => absurd hk (by simp [h])

theorem rxSeek_sameButStale (h : AgreesWithBody b s) (d : Byte) :
    sameButStale (.next (rxSeek d s)) (.next (rxSeek d (withRxBuf b s))) := by
  unfold rxSeek
  split
  · exact sameButStale_next (s := { s with rxDest := d, rxState := .readLen }) h
  · exact sameButStale_next h

theorem rxReadLen_sameButStale (d : Byte) :
    sameButStale (.next (rxReadLen d s)) (.next (rxReadLen d (withRxBuf b s))) := by
  unfold rxReadLen
  split
  · exact sameButStale_next (s := { s with rxLen := d, rxCnt := 0, rxState := .readBody })
      (agreesWithBody_of_rxCnt_zero rfl)
  · exact sameButStale_next (s := toSeek s) (agreesWithBody_of_rxCnt_zero rfl)

/-- The stored byte is the next one of the body in both buffers. -/
theorem agreesWithBody_rxStore (h : AgreesWithBody b s) (hc : s.rxCnt.toNat < 62) (d : Byte) :
    AgreesWithBody (b.setIfInBounds s.rxCnt.toNat d) (rxStore d s) := by
  intro k hk
  rw [rxStore_rxCnt_toNat hc] at hk
  simp only [rxStore, Fin.getElem_fin, Vector.getElem_setIfInBounds]
  split
  · rfl
  · exact h k (by omega)

/-- Buffers that agree on the body so far spell the same body. -/
theorem take_of_agreesWithBody (h : AgreesWithBody b s) :
    b.toList.take s.rxCnt.toNat = s.rxBuf.toList.take s.rxCnt.toNat := by
  apply List.ext_getElem
  · simp
  · intro k hk _
    simp only [List.length_take, Vector.length_toList, lt_inf_iff] at hk
    simpa using h ⟨k, hk.2⟩ hk.1

theorem dispatch_withRxBuf (b : Vector Byte 62) (ty : Byte) (p : List Byte) (s : State) :
    dispatch ty p (withRxBuf b s) = withRxBuf b (dispatch ty p s) := by
  unfold dispatch dispatchChannels dispatchLink
  split_ifs <;> rfl

theorem validateBody_withRxBuf (b : Vector Byte 62) (body : List Byte) (s : State) :
    validateBody body (withRxBuf b s) = withRxBuf b (validateBody body s) := by
  unfold validateBody
  split
  · exact dispatch_withRxBuf b _ _ s
  · rfl

/-- A body is validated only when it is complete, and then none of its bytes is stale. -/
theorem rxComplete_withRxBuf (h : AgreesWithBody b s) :
    rxComplete (withRxBuf b s) = withRxBuf b (rxComplete s) := by
  by_cases hc : s.rxCnt.toNat = s.rxLen.toNat
  · have hbody : b.toList.take s.rxLen.toNat = s.rxBuf.toList.take s.rxLen.toNat := hc ▸ take_of_agreesWithBody h
    have hvalid : rxValidate (withRxBuf b { s with rxState := .validate }) =
        withRxBuf b (rxValidate { s with rxState := .validate }) := by
      rw [rxValidate, validateBody_withRxBuf]
      exact congrArg (fun body => withRxBuf b (validateBody body { s with rxState := .validate })) hbody
    rw [rxComplete_eq_of_complete hc, rxComplete_eq_of_complete (s := withRxBuf b s) hc]
    exact congrArg toSeek hvalid
  · rw [rxComplete_of_incomplete hc, rxComplete_of_incomplete (s := withRxBuf b s) hc]

theorem agreesWithBody_rxComplete (h : AgreesWithBody b s) : AgreesWithBody b (rxComplete s) := by
  by_cases hc : s.rxCnt.toNat = s.rxLen.toNat
  · apply agreesWithBody_of_rxCnt_zero
    rw [rxComplete_eq_of_complete hc]
    rfl
  · rwa [rxComplete_of_incomplete hc]

theorem rxBody_sameButStale (h : AgreesWithBody b s) (d : Byte) :
    sameButStale (rxBody d s) (rxBody d (withRxBuf b s)) := by
  refine sameButStale_ite (fun hc => ?_) fun _ => sameButStale_refl _
  have hstore := agreesWithBody_rxStore h hc d
  have hnext := sameButStale_next (agreesWithBody_rxComplete hstore)
  rwa [← rxComplete_withRxBuf hstore] at hnext

theorem execRxByte_sameButStale (h : AgreesWithBody b s) (d : Byte) :
    sameButStale (execRxByte d s) (execRxByte d (withRxBuf b s)) := by
  apply rxChecked_sameButStale h
  rw [show (withRxBuf b s).rxState = s.rxState from rfl]
  cases s.rxState with
  | seekSync => exact rxSeek_sameButStale h d
  | readLen => exact rxReadLen_sameButStale d
  | readBody => exact rxBody_sameButStale h d
  | validate => exact sameButStale_refl _

/-! ### The sink -/

theorem endSend_withRxBuf (b : Vector Byte 62) (s : State) : endSend (withRxBuf b s) = withRxBuf b (endSend s) := by
  rw [endSend, endSend, apply_ite (withRxBuf b)]
  rfl

theorem endSend_sameButStale (h : AgreesWithBody b s) :
    sameButStale (.next (endSend s)) (.next (endSend (withRxBuf b s))) := by
  rw [endSend_withRxBuf]
  apply sameButStale_next
  rw [endSend_frame]
  exact h

theorem execSinkTake_sameButStale (h : AgreesWithBody b s) (n : Nat) :
    sameButStale (execSinkTake n s) (execSinkTake n (withRxBuf b s)) :=
  whileSending_sameButStale <|
    sameButStale_ite
      (fun _ => endSend_sameButStale
        (s := { s with txPos := BitVec.ofNat 7 (s.txPos.toNat + n), wire := s.wire ++ offered n s }) h)
      fun _ => sameButStale_refl _

/-! ### The register port -/

theorem readReg_withRxBuf (b : Vector Byte 62) (r : Reg) (s : State) :
    readReg r (withRxBuf b s) = readReg r s := by
  cases r <;> rfl

theorem writeReg_withRxBuf (b : Vector Byte 62) (r : Reg) (v : Word32) (s : State) :
    writeReg r v (withRxBuf b s) = withRxBuf b (writeReg r v s) := by
  cases r <;> rfl

theorem writeReg_sameButStale (h : AgreesWithBody b s) (r : Reg) (v : Word32) :
    sameButStale (.next (writeReg r v s)) (.next (writeReg r v (withRxBuf b s))) := by
  rw [writeReg_withRxBuf]
  apply sameButStale_next
  rw [writeReg_frame]
  exact h

theorem returnWord_sameButStale (h : AgreesWithBody b s) (v : Word32) :
    sameButStale (returnWord v s) (returnWord v (withRxBuf b s)) :=
  sameButStale_next (s := { s with rdData := some v }) h

theorem readFault_sameButStale (h : AgreesWithBody b s) (off : Offset) :
    sameButStale (readFault off s) (readFault off (withRxBuf b s)) :=
  sameButStale_ite (fun _ => returnWord_sameButStale h 0) fun _ => raise_sameButStale h _ _

theorem execRd_sameButStale (h : AgreesWithBody b s) (off : Offset) (ignored : Word32) :
    sameButStale (execRd off ignored s) (execRd off ignored (withRxBuf b s)) := by
  unfold execRd
  split
  · exact readFault_sameButStale h off
  · rw [readReg_withRxBuf]
    split
    · exact readFault_sameButStale h off
    · exact returnWord_sameButStale h _
    · exact returnWord_sameButStale h _

theorem runCommand_sameButStale (h : AgreesWithBody b s) (w : Word32) (i : Instr) :
    sameButStale (runCommand w i s) (runCommand w i (withRxBuf b s)) := by
  cases i with
  | init =>
    exact unlessFrozen_sameButStale h <|
      sameButStale_ite (fun _ => raise_sameButStale h _ _) fun _ => sameButStale_next (s := { s with en := true }) h
  | crcClear | crcFeed | chUnpack | chPack | latchCh | latchLink =>
    exact unlessFrozen_sameButStale h (.inl ⟨_, _, rfl, rfl, rfl, h⟩)
  | sendBattery | sendGps | sendRaw => exact sendFrame_sameButStale h _ _ _ _ _
  | rxByte | rxErrTransient | rxErrFatal | sinkTake | sinkFail | rd | wr => exact raise_sameButStale h _ _

theorem executeCommand_sameButStale (h : AgreesWithBody b s) (w : Word32) :
    sameButStale (executeCommand w s) (executeCommand w (withRxBuf b s)) := by
  unfold executeCommand
  split
  · exact runCommand_sameButStale h w _
  · exact raise_sameButStale h _ _

theorem execWr_sameButStale (h : AgreesWithBody b s) (off : Offset) (v : Word32) :
    sameButStale (execWr off v s) (execWr off v (withRxBuf b s)) := by
  apply unlessFrozen_sameButStale h
  split
  · exact raise_sameButStale h _ _
  · next r _ =>
    split
    · exact raise_sameButStale h _ _
    · exact executeCommand_sameButStale h v
    · exact sameButStale_ite (fun _ => writeReg_sameButStale h r v) fun _ => raise_sameButStale h _ _

/-! ### Every instruction and every step -/

theorem exec_sameButStale (h : AgreesWithBody b s) (i : Instr) :
    sameButStale (exec i s) (exec i (withRxBuf b s)) := by
  cases i with
  | init => exact runCommand_sameButStale h 0 .init
  | crcClear => exact runCommand_sameButStale h 0 .crcClear
  | crcFeed a => exact runCommand_sameButStale h 0 (.crcFeed a)
  | chUnpack => exact runCommand_sameButStale h 0 .chUnpack
  | chPack => exact runCommand_sameButStale h 0 .chPack
  | latchCh => exact runCommand_sameButStale h 0 .latchCh
  | latchLink => exact runCommand_sameButStale h 0 .latchLink
  | sendBattery d => exact runCommand_sameButStale h 0 (.sendBattery d)
  | sendGps d => exact runCommand_sameButStale h 0 (.sendGps d)
  | sendRaw d ty n => exact runCommand_sameButStale h 0 (.sendRaw d ty n)
  | rxByte d => exact execRxByte_sameButStale h d
  | rxErrTransient => exact rxChecked_sameButStale h _ (sameButStale_next h)
  | rxErrFatal => exact rxChecked_sameButStale h _ (sameButStale_next (s := { s with rxDead := true }) h)
  | sinkTake n => exact execSinkTake_sameButStale h n
  | sinkFail =>
    exact whileSending_sameButStale (sameButStale_next (s := { s with txBusy := false, txResult := .fail }) h)
  | rd off ignored => exact execRd_sameButStale h off ignored
  | wr off v => exact execWr_sameButStale h off v

theorem rejectWord_sameButStale (h : AgreesWithBody b s) (e : DecodeError) :
    sameButStale (rejectWord e s) (rejectWord e (withRxBuf b s)) := by
  cases e with
  | unassignedOpcode | nonZeroField => exact unlessFrozen_sameButStale h (raise_sameButStale h _ _)
  | illegalRxWord w => exact illegalRxWord_sameButStale h w
  | notASinkStep => exact sameButStale_refl _

theorem step_sameButStale (h : AgreesWithBody b s) : sameButStale (step s) (step (withRxBuf b s)) := by
  unfold step
  cases hi : s.inputs with
  | nil =>
    rw [takeInput_nil hi, takeInput_nil (s := withRxBuf b s) hi]
    exact sameButStale_next h
  | cons inp rest =>
    have hrest : AgreesWithBody b { s with inputs := rest } := h
    rw [takeInput_cons s inp rest hi, takeInput_cons (withRxBuf b s) inp rest hi]
    dsimp only
    split
    · exact sameButStale_refl _
    · split
      · exact exec_sameButStale hrest _
      · exact rejectWord_sameButStale hrest _

/-- Settles O44, by the cases of a step: the delivered word's operation answers alike. -/
theorem staleBufferIsUnobservable : Obligations.StaleBufferIsUnobservable :=
  fun _ _ h => step_sameButStale h

end Sys2Proof.Claims
end

section
/-! PROOFS. The register port (20_memory.md): the rows of the map R43 as offset ranges, what RD and WR of an offset do by
the access of its register, and a step as the instruction its word decodes to. -/

namespace Sys2Proof.Machine

/-! ### The map's rows as offset ranges -/

/-- A register stands at its offset (R43). -/
theorem regAt_of_toNat {off : Offset} {r : Reg} (h : off.toNat = regOffset r) : regAt off = some r := by
  rw [← regAt_regOffset r, ← h, BitVec.ofNat_toNat, BitVec.setWidth_eq]

/-- An aligned offset within an array names one of its elements (R43). -/
theorem exists_element {base m : Nat} (n : Nat) (ha : m % 4 = 0) (hb : base % 4 = 0) (hlo : base ≤ m)
    (hhi : m < base + 4 * n) : ∃ i : Fin n, m = base + 4 * i.val :=
  ⟨⟨(m - base) / 4, by omega⟩, by dsimp only; omega⟩

/-- The offsets of the RW rows hold exactly the RW registers (R43). -/
theorem dataOffset_iff {off : Offset} :
    Claims.dataOffset off ↔ ∃ r, regAt off = some r ∧ regAccess r = .rw := by
  constructor
  · rintro ⟨ha, h | h | h | h⟩
    · obtain ⟨i, hi⟩ := exists_element (base := 0x100) 16 ha rfl h.1 (by omega)
      exact ⟨.codecCh i, regAt_of_toNat hi, rfl⟩
    · obtain ⟨i, hi⟩ := exists_element (base := 0x140) 22 ha rfl h.1 (by omega)
      exact ⟨.codecPk i, regAt_of_toNat hi, rfl⟩
    · obtain h | h | h | h | h | h | h | h | h | h :
          off.toNat = 0x1A0 ∨ off.toNat = 0x1A4 ∨ off.toNat = 0x1A8 ∨ off.toNat = 0x1AC ∨ off.toNat = 0x1B0 ∨
          off.toNat = 0x1B4 ∨ off.toNat = 0x1B8 ∨ off.toNat = 0x1BC ∨ off.toNat = 0x1C0 ∨ off.toNat = 0x1C4 := by
        omega
      · exact ⟨.batVoltage, regAt_of_toNat h, rfl⟩
      · exact ⟨.batCurrent, regAt_of_toNat h, rfl⟩
      · exact ⟨.batCapacity, regAt_of_toNat h, rfl⟩
      · exact ⟨.batRemaining, regAt_of_toNat h, rfl⟩
      · exact ⟨.gpsLat, regAt_of_toNat h, rfl⟩
      · exact ⟨.gpsLon, regAt_of_toNat h, rfl⟩
      · exact ⟨.gpsGspd, regAt_of_toNat h, rfl⟩
      · exact ⟨.gpsHeading, regAt_of_toNat h, rfl⟩
      · exact ⟨.gpsAlt, regAt_of_toNat h, rfl⟩
      · exact ⟨.gpsSats, regAt_of_toNat h, rfl⟩
    · obtain ⟨i, hi⟩ := exists_element (base := 0x200) 60 ha rfl h.1 (by omega)
      exact ⟨.txPayload i, regAt_of_toNat hi, rfl⟩
  · rintro ⟨r, hr, hw⟩
    have ho := regAt_some hr
    cases r with
    | codecCh | codecPk | txPayload | batVoltage | batCurrent | batCapacity | batRemaining | gpsLat | gpsLon | gpsGspd
    | gpsHeading | gpsAlt | gpsSats =>
      dsimp only [regOffset] at ho
      omega
    | _ => cases hw

/-- The readable offsets hold exactly the registers that are not write-only (R43, R64). -/
theorem readable_iff {off : Offset} :
    Claims.readable off ↔ ∃ r, regAt off = some r ∧ regAccess r ≠ .wo := by
  constructor
  · have ofData (hd : Claims.dataOffset off) : ∃ r, regAt off = some r ∧ regAccess r ≠ .wo := by
      obtain ⟨r, hr, hw⟩ := dataOffset_iff.mp hd
      exact ⟨r, hr, by rw [hw]; nofun⟩
    rintro ⟨ha, h | h | h | h | h | h | h | h⟩
    · obtain h | h | h | h | h | h :
          off.toNat = 0x004 ∨ off.toNat = 0x008 ∨ off.toNat = 0x00C ∨ off.toNat = 0x010 ∨ off.toNat = 0x014 ∨
          off.toNat = 0x018 := by omega
      · exact ⟨.status, regAt_of_toNat h, nofun⟩
      · exact ⟨.fault, regAt_of_toNat h, nofun⟩
      · exact ⟨.faultInfo, regAt_of_toNat h, nofun⟩
      · exact ⟨.rxDebug, regAt_of_toNat h, nofun⟩
      · exact ⟨.crcAcc, regAt_of_toNat h, nofun⟩
      · exact ⟨.txInfo, regAt_of_toNat h, nofun⟩
    · obtain ⟨i, hi⟩ := exists_element (base := 0x040) 16 ha rfl h.1 (by omega)
      exact ⟨.chShadow i, regAt_of_toNat hi, nofun⟩
    · obtain ⟨i, hi⟩ := exists_element (base := 0x080) 10 ha rfl h.1 (by omega)
      exact ⟨.linkShadow i, regAt_of_toNat hi, nofun⟩
    · exact ofData ⟨ha, .inl h⟩
    · exact ofData ⟨ha, .inr (.inl h)⟩
    · exact ofData ⟨ha, .inr (.inr (.inl h))⟩
    · exact ofData ⟨ha, .inr (.inr (.inr h))⟩
    · obtain ⟨i, hi⟩ := exists_element (base := 0x400) 64 ha rfl h.1 (by omega)
      exact ⟨.txBuf i, regAt_of_toNat hi, nofun⟩
  · rintro ⟨r, hr, hw⟩
    have ho := regAt_some hr
    cases r with
    | cmd => exact absurd rfl hw
    | _ => dsimp only [regOffset] at ho; omega

/-- The Field column's width of a RW offset is its register's width (R43, R65). -/
theorem fieldWidth_eq_regWidth {off : Offset} {r : Reg} (hr : regAt off = some r) (hw : regAccess r = .rw) :
    Claims.fieldWidth off = regWidth r := by
  unfold Claims.fieldWidth
  rw [regAt_some hr]
  cases r with
  | codecCh i | codecPk i | txPayload i =>
    dsimp only [regOffset, regWidth]
    grind
  | batVoltage | batCurrent | batCapacity | batRemaining | gpsLat | gpsLon | gpsGspd | gpsHeading | gpsAlt | gpsSats => rfl
  | _ => cases hw

/-! ### The info word of an access fault -/

theorem accessInfo_read (off : Offset) : accessInfo false off = off.setWidth 32 := by
  apply BitVec.eq_of_toNat_eq
  rw [accessInfo, BitVec.toNat_setWidth_of_le (by decide), toNat_append_add, BitVec.toNat_setWidth_of_le (by decide)]
  simp

theorem accessInfo_write (off : Offset) : accessInfo true off = BitVec.ofNat 32 (0x1000 + off.toNat) := by
  apply BitVec.eq_of_toNat_eq
  rw [accessInfo, BitVec.toNat_setWidth_of_le (by decide), toNat_append_add, BitVec.toNat_ofNat, BitVec.toNat_ofBool,
    Bool.toNat_true]
  omega

/-! ### RD and WR by the access of the offset's register -/

variable {off : Offset} {s : State}

/-- RD of an offset with no register to read, on a live block (R62 to R64). -/
theorem execRd_of_not_readable (h : ∀ r, regAt off = some r → regAccess r = .wo) (ignored : Word32)
    (hl : s.faulted = false) :
    execRd off ignored s = .next (faultEntry .badAccess (accessInfo false off) s) := by
  have hf : readFault off s = .next (faultEntry .badAccess (accessInfo false off) s) := by
    simp [readFault, hl]
  unfold execRd
  cases hr : regAt off with
  | none => exact hf
  | some r => simpa only [h r hr] using hf

/-- WR to an offset with no register, or with a read-only one, on a live block (R62 to R64). -/
theorem execWr_of_not_writable (h : ∀ r, regAt off = some r → regAccess r = .ro) (v : Word32)
    (hl : s.faulted = false) :
    execWr off v s = .next (faultEntry .badAccess (accessInfo true off) s) := by
  unfold execWr
  rw [unlessFrozen_of_live hl]
  cases hr : regAt off with
  | none => rfl
  | some r => simp only [h r hr, raise_eq]

/-- WR of a fitting value to a RW register on a live block (R67). -/
theorem execWr_of_fits {r : Reg} (hr : regAt off = some r) (hw : regAccess r = .rw) {v : Word32}
    (hv : v.toNat < 2 ^ regWidth r) (hl : s.faulted = false) : execWr off v s = .next (writeReg r v s) := by
  rw [execWr_of_regAt hr hw v hl, if_pos (by simpa [fitsReg] using hv)]

/-- WR of a value with a reserved bit set to a RW register on a live block (R65). -/
theorem execWr_of_not_fits {r : Reg} (hr : regAt off = some r) (hw : regAccess r = .rw) {v : Word32}
    (hv : 2 ^ regWidth r ≤ v.toNat) (hl : s.faulted = false) :
    execWr off v s = .next (faultEntry .badValue (accessInfo true off) s) := by
  rw [execWr_of_regAt hr hw v hl, if_neg (by simpa [fitsReg] using hv)]

/-- WR to a RW register at its own offset writes the register (R43, R67). -/
theorem wrGives_of_register (r : Reg) (hw : regAccess r = .rw) (hl : s.faulted = false) (v : Word32) :
    Claims.wrGives s v (regOffset r) (regWidth r) (writeReg r v s) :=
  fun hv => execWr_of_fits (regAt_regOffset r) hw hv hl

end Sys2Proof.Machine

namespace Sys2Proof.Claims

open Sys2Proof.Machine

/-- Settles O18: the readable offsets are those of a register that is not write-only. -/
theorem rdServesExactlyTheReadableOffsets : Obligations.RdServesExactlyTheReadableOffsets := by
  intro off ignored s
  constructor
  · intro hread
    obtain ⟨r, hr, ha⟩ := readable_iff.mp hread
    exact ⟨readReg r s, execRd_of_regAt hr ha ignored s⟩
  · intro hl hread
    have hwo (r : Reg) (hr : regAt off = some r) : regAccess r = .wo :=
      by_contra fun ha => hread (readable_iff.mpr ⟨r, hr, ha⟩)
    rw [← accessInfo_read]
    exact execRd_of_not_readable hwo ignored hl

/-- Settles O19: a register at such an offset is neither RW nor CMD, the one write-only register, so it is read-only. -/
theorem wrOutsideWritableOffsetsFaults : Obligations.WrOutsideWritableOffsetsFaults := by
  intro off v s hl hcmd hdata
  have hro (r : Reg) (hr : regAt off = some r) : regAccess r = .ro := by
    cases ha : regAccess r with
    | ro => rfl
    | wo => exact absurd (regAt_wo hr ha) hcmd
    | rw => exact absurd (dataOffset_iff.mpr ⟨r, hr, ha⟩) hdata
  rw [← accessInfo_write]
  exact execWr_of_not_writable hro v hl

/-- Settles O20: each of these registers is written at its own offset, and the write sets its one element. -/
theorem wrStoresTheDataRegisters : Obligations.WrStoresTheDataRegisters := by
  intro s v hl
  have wr (r : Reg) (hw : regAccess r = .rw) := wrGives_of_register r hw hl v
  simp only [BitVec.ofNat_toNat]
  exact ⟨fun k => wr (.codecCh k) rfl, fun k => wr (.codecPk k) rfl, wr .batVoltage rfl, wr .batCurrent rfl,
    wr .batCapacity rfl, wr .batRemaining rfl, wr .gpsLat rfl, wr .gpsLon rfl, wr .gpsGspd rfl, wr .gpsHeading rfl,
    wr .gpsAlt rfl, wr .gpsSats rfl, fun k => wr (.txPayload k) rfl⟩

/-- Settles O21: the value does not fit the RW register at the offset, whose width is the offset's field width. -/
theorem wrReservedBitsFault : Obligations.WrReservedBitsFault := by
  intro off v s hl hdata hv
  obtain ⟨r, hr, hw⟩ := dataOffset_iff.mp hdata
  rw [fieldWidth_eq_regWidth hr hw] at hv
  rw [← accessInfo_write]
  exact execWr_of_not_fits hr hw hv hl

/-- Settles O22: the written register reads as the value, and another offset holds another register. -/
theorem wrIsReadBackAndLeavesTheRest : Obligations.WrIsReadBackAndLeavesTheRest := by
  intro off v ignored s hl hdata hv
  obtain ⟨r, hr, hw⟩ := dataOffset_iff.mp hdata
  rw [fieldWidth_eq_regWidth hr hw] at hv
  refine ⟨writeReg r v s, execWr_of_fits hr hw hv hl, ?_, ?_⟩
  · have hself := execRd_of_regAt hr (by rw [hw]; nofun) ignored (writeReg r v s)
    rwa [readReg_writeReg_self hw hv] at hself
  · intro other x hread hne hx
    obtain ⟨q, hq, hqa⟩ := readable_iff.mp hread
    have hqr : q ≠ r := fun h => hne (regAt_injective (h ▸ hq) hr)
    have hxq : x = readReg q s := by
      have hnext := next_inj ((execRd_of_regAt hq hqa ignored s).symm.trans hx)
      simpa using congrArg State.rdData hnext
    rw [hxq, ← readReg_writeReg_other hw hqr v s]
    exact execRd_of_regAt hq hqa ignored (writeReg r v s)

/-- Settles O7: the step takes the word and performs the instruction it decodes to. -/
theorem stepRunsTheDecodedInstruction : Obligations.StepRunsTheDecodedInstruction := by
  intro s inp rest c i hi hc hd
  simp only [step, takeInput_cons s inp rest hi, hc, hd]

end Sys2Proof.Claims
end

section
/-! PROOFS. Decode and encode (30_encoding.md): one format after the other, the decoder on an assembled word and the
word of what was decoded; then which words are no commands (R93, R94), and what they and the illegal RX words (R95) do. -/

namespace Sys2Proof

/-- A field is zero when the word's digits there are. -/
theorem extract_eq_zero_iff {n start len : Nat} {x : BitVec n} :
    x.extractLsb' start len = 0 ↔ x.toNat / 2 ^ start % 2 ^ len = 0 := by
  rw [← BitVec.toNat_inj, toNat_extract]
  simp

/-! ### The CMD format -/

@[simp] theorem noArgs_cmdWord (op : Byte) (i : Instr) : noArgs (cmdWord op 0#8 0#8 0#8) i = .ok i := by
  simp [noArgs]

@[simp] theorem oneArg_cmdWord (op a : Byte) (f : Byte → Instr) : oneArg (cmdWord op a 0#8 0#8) f = .ok (f a) := by
  simp [oneArg]

/-- A SEND_RAW word decodes to its three argument bytes, whatever they are (R93). -/
theorem decodeCmd_sendRaw (a b c : Byte) : decodeCmd (cmdWord 0x0A a b c) = .ok (.sendRaw a b c.toNat) := by
  simp [decodeCmd]

/-- The word of a command with the one argument A, its B and C as one field of 16 zero bits. -/
theorem cmdWord_of_oneArg (op a : Byte) : (0#16 ++ a ++ op : BitVec 32) = cmdWord op a 0 0 := by
  apply BitVec.eq_of_toNat_eq
  have h : (0#16 ++ a ++ op : BitVec 32).toNat = (0#16 ++ a ++ op : BitVec (16 + 8 + 8)).toNat := rfl
  rw [h, toNat_append_add, toNat_append_add, cmdWord_toNat]
  simp

/-- A word is the encoding of a well-formed instruction. -/
def Encodes (c : CodeWord) (i : Instr) : Prop := i.wellFormed = true ∧ encode i = c

section
variable {w : BitVec 32} {i j : Instr} {op : Byte}

theorem encodes_of_noArgs (hop : cmdOp w = op) (hi : Encodes (.cmd (cmdWord op 0 0 0)) i) (h : noArgs w i = .ok j) :
    Encodes (.cmd w) j := by
  unfold noArgs at h
  split at h
  · next hz =>
    obtain ⟨ha, hb, hc⟩ := hz
    obtain rfl : i = j := Except.ok.inj h
    rwa [← cmdWord_fields w, hop, ha, hb, hc]
  · cases h

theorem encodes_of_oneArg {f : Byte → Instr} (hop : cmdOp w = op)
    (hf : ∀ a, Encodes (.cmd (cmdWord op a 0 0)) (f a)) (h : oneArg w f = .ok j) : Encodes (.cmd w) j := by
  unfold oneArg at h
  split at h
  · next hz =>
    obtain ⟨hb, hc⟩ := hz
    obtain rfl : f (cmdA w) = j := Except.ok.inj h
    rw [← cmdWord_fields w, hop, hb, hc]
    simpa using hf (cmdA w)
  · cases h

theorem encodes_sendRaw (hop : cmdOp w = 0x0A) :
    Encodes (.cmd w) (.sendRaw (cmdA w) (cmdB w) (cmdC w).toNat) := by
  refine ⟨decide_eq_true (cmdC w).isLt, ?_⟩
  rw [encode, BitVec.ofNat_toNat, BitVec.setWidth_eq, ← hop, cmdWord_fields]

/-- A CMD word that decodes, by the row of the opcode map (R92) it matches. -/
theorem encodes_of_decodeCmd (h : decodeCmd w = .ok i) : Encodes (.cmd w) i := by
  unfold decodeCmd at h
  split at h; · next hop => exact encodes_of_noArgs hop ⟨rfl, rfl⟩ h
  split at h; · next hop => exact encodes_of_noArgs hop ⟨rfl, rfl⟩ h
  split at h; · next hop => exact encodes_of_oneArg hop (fun _ => ⟨rfl, rfl⟩) h
  split at h; · next hop => exact encodes_of_noArgs hop ⟨rfl, rfl⟩ h
  split at h; · next hop => exact encodes_of_noArgs hop ⟨rfl, rfl⟩ h
  split at h; · next hop => exact encodes_of_noArgs hop ⟨rfl, rfl⟩ h
  split at h; · next hop => exact encodes_of_noArgs hop ⟨rfl, rfl⟩ h
  split at h; · next hop => exact encodes_of_oneArg hop (fun _ => ⟨rfl, rfl⟩) h
  split at h; · next hop => exact encodes_of_oneArg hop (fun _ => ⟨rfl, rfl⟩) h
  split at h
  · next hop =>
    obtain rfl := Except.ok.inj h
    exact encodes_sendRaw hop
  · cases h

end

/-- A command's word, by the number of its arguments: what is not an argument is zero (R92). -/
theorem cmd_fields_of_encode {w : BitVec 32} {i : Instr} (h : encode i = .cmd w) :
    (w.toNat % 2 ^ 8 ∈ [0x01, 0x02, 0x04, 0x05, 0x06, 0x07] ∧ w.toNat / 2 ^ 8 = 0) ∨
    (w.toNat % 2 ^ 8 ∈ [0x03, 0x08, 0x09] ∧ w.toNat / 2 ^ 16 = 0) ∨ w.toNat % 2 ^ 8 = 0x0A := by
  cases i with
  | init | crcClear | chUnpack | chPack | latchCh | latchLink => cases h; exact .inl (by decide)
  | crcFeed a | sendBattery a | sendGps a =>
    cases h
    refine .inr (.inl ?_)
    simp only [cmdWord_toNat, List.mem_cons, BitVec.ofNat_eq_ofNat, BitVec.toNat_ofNat]
    omega
  | sendRaw a b n =>
    cases h
    refine .inr (.inr ?_)
    simp only [cmdWord_toNat, BitVec.ofNat_eq_ofNat, BitVec.toNat_ofNat]
    omega
  | rxByte | rxErrTransient | rxErrFatal | sinkTake | sinkFail | rd | wr => cases h

/-! ### The RXW format -/

theorem decodeRxw_byte (d : Byte) : decodeRxw (0#2 ++ d) = .ok (.rxByte d) := by
  have hk : (0#2 ++ d : BitVec 10).extractLsb' 8 2 = 0 := extract_above (by rw [rxw_byte_toNat]; exact d.isLt) 2
  have hd : (0#2 ++ d : BitVec 10).extractLsb' 0 8 = d := extract_of_digits (by rw [rxw_byte_toNat]; omega)
  rw [decodeRxw, if_pos hk, hd]

theorem encodes_of_decodeRxw {w : BitVec 10} {i : Instr} (h : decodeRxw w = .ok i) : Encodes (.rxw w) i := by
  unfold decodeRxw at h
  split at h
  · next hk =>
    obtain rfl := Except.ok.inj h
    rw [extract_eq_zero_iff] at hk
    refine ⟨rfl, congrArg CodeWord.rxw (BitVec.eq_of_toNat_eq ?_)⟩
    rw [rxw_byte_toNat, toNat_extract]
    omega
  split at h; · next hw => obtain rfl := Except.ok.inj h; exact ⟨rfl, congrArg CodeWord.rxw hw.symm⟩
  split at h; · next hw => obtain rfl := Except.ok.inj h; exact ⟨rfl, congrArg CodeWord.rxw hw.symm⟩
  cases h

/-- An RX port word above the bytes that is neither of the two error words is illegal (R95). -/
theorem decodeRxw_of_illegal {w : BitVec 10} (h : 0x100 < w.toNat) (h' : w.toNat ≠ 0x200) :
    decodeRxw w = .error (.illegalRxWord w) := by
  have hk : w.extractLsb' 8 2 ≠ 0 := by
    rw [Ne, extract_eq_zero_iff]
    omega
  have htransient : w ≠ 0x100 := by rintro rfl; exact absurd h (by decide)
  have hfatal : w ≠ 0x200 := by rintro rfl; exact h' rfl
  rw [decodeRxw, if_neg hk, if_neg htransient, if_neg hfatal]

/-! ### The SINKW format -/

theorem decodeSinkw_take (n : BitVec 7) : decodeSinkw (0#1 ++ n) = .ok (.sinkTake n.toNat) := by
  have hf : (0#1 ++ n : BitVec 8).getLsbD 7 = false :=
    getLsbD_of_digit (by rw [sinkw_take_toNat, Bool.toNat_false]; omega)
  have hn : (0#1 ++ n : BitVec 8).extractLsb' 0 7 = n := extract_of_digits (by rw [sinkw_take_toNat]; omega)
  rw [decodeSinkw, if_pos hf, hn]

theorem encodes_of_decodeSinkw {w : BitVec 8} {i : Instr} (h : decodeSinkw w = .ok i) : Encodes (.sinkw w) i := by
  unfold decodeSinkw at h
  split at h
  · next hf =>
    obtain rfl := Except.ok.inj h
    have hf : w.toNat / 2 ^ 7 % 2 ≠ 1 := by rwa [getLsbD_eq_decide, decide_eq_false_iff_not] at hf
    refine ⟨decide_eq_true (w.extractLsb' 0 7).isLt, congrArg CodeWord.sinkw (BitVec.eq_of_toNat_eq ?_)⟩
    rw [sinkw_take_toNat, BitVec.ofNat_toNat, BitVec.setWidth_eq, toNat_extract]
    omega
  split at h; · next hw => obtain rfl := Except.ok.inj h; exact ⟨rfl, congrArg CodeWord.sinkw hw.symm⟩
  cases h

/-! ### The BUS format -/

theorem bus_fields (we : Bool) (off : Offset) (data : Word32) :
    (BitVec.ofBool we ++ off ++ data : BitVec 45).getLsbD 44 = we ∧
    (BitVec.ofBool we ++ off ++ data : BitVec 45).extractLsb' 32 12 = off ∧
    (BitVec.ofBool we ++ off ++ data : BitVec 45).extractLsb' 0 32 = data := by
  have hn := bus_toNat (BitVec.ofBool we) off data
  rw [BitVec.toNat_ofBool] at hn
  refine ⟨getLsbD_of_digit ?_, extract_of_digits ?_, extract_of_digits ?_⟩ <;> rw [hn]
  · have := we.toNat_lt
    omega
  · omega
  · omega

/-- A BUS word is assembled from its own fields (R97). -/
theorem bus_of_fields (w : BitVec 45) :
    (BitVec.ofBool (w.getLsbD 44) ++ w.extractLsb' 32 12 ++ w.extractLsb' 0 32 : BitVec 45) = w := by
  apply BitVec.eq_of_toNat_eq
  rw [bus_toNat, BitVec.toNat_ofBool, toNat_extract, toNat_extract, getLsbD_eq_decide]
  have := w.isLt
  by_cases hwe : w.toNat / 2 ^ 44 % 2 = 1
  · simp only [hwe, decide_true, Bool.toNat_true]
    omega
  · simp only [hwe, decide_false, Bool.toNat_false]
    omega

theorem decodeBus_rd (off : Offset) (ignored : Word32) : decodeBus (0#1 ++ off ++ ignored) = .rd off ignored := by
  obtain ⟨hwe, hoff, hdata⟩ := bus_fields false off ignored
  rw [show (0#1 : BitVec 1) = BitVec.ofBool false from rfl, decodeBus, hwe, hoff, hdata]
  rfl

theorem decodeBus_wr (off : Offset) (data : Word32) : decodeBus (1#1 ++ off ++ data) = .wr off data := by
  obtain ⟨hwe, hoff, hdata⟩ := bus_fields true off data
  rw [show (1#1 : BitVec 1) = BitVec.ofBool true from rfl, decodeBus, hwe, hoff, hdata]
  rfl

theorem encodes_decodeBus (w : BitVec 45) : Encodes (.bus w) (decodeBus w) := by
  have hw := bus_of_fields w
  unfold decodeBus
  cases hwe : w.getLsbD 44 <;> rw [hwe] at hw <;> exact ⟨rfl, congrArg CodeWord.bus hw⟩

end Sys2Proof

namespace Sys2Proof.Claims

open Sys2Proof.Machine

/-- Settles O1, by the instruction's format. -/
theorem decodeOfEncodeIsTheInstruction : Obligations.DecodeOfEncodeIsTheInstruction := by
  intro i hi
  cases i with
  | init | crcClear | chUnpack | chPack | latchCh | latchLink => simp [encode, decode, decodeCmd]
  | crcFeed a | sendBattery a | sendGps a => simp [encode, decode, decodeCmd]
  | sendRaw dest type len =>
    have hlen : len < 256 := by simpa [Instr.wellFormed] using hi
    refine (decodeCmd_sendRaw dest type (BitVec.ofNat 8 len)).trans ?_
    rw [BitVec.toNat_ofNat, Nat.mod_eq_of_lt hlen]
  | rxByte d => exact decodeRxw_byte d
  | sinkTake n =>
    have hn : n < 128 := by simpa [Instr.wellFormed] using hi
    refine (decodeSinkw_take (BitVec.ofNat 7 n)).trans ?_
    rw [BitVec.toNat_ofNat, Nat.mod_eq_of_lt hn]
  | rxErrTransient | rxErrFatal | sinkFail => rfl
  | rd off ignored => exact congrArg Except.ok (decodeBus_rd off ignored)
  | wr off data => exact congrArg Except.ok (decodeBus_wr off data)

/-- Settles O2, by the word's format. -/
theorem decodedWordIsItsEncoding : Obligations.DecodedWordIsItsEncoding := by
  intro c i h
  cases c with
  | cmd w => exact encodes_of_decodeCmd h
  | rxw w => exact encodes_of_decodeRxw h
  | sinkw w => exact encodes_of_decodeSinkw h
  | bus w =>
    obtain rfl := Except.ok.inj h
    exact encodes_decodeBus w

/-- A word that is no command's encoding faults ILLEGAL_CMD when it is written to CMD (R93, R94). -/
theorem illegalCommand_of_not_encoded {w : Word32} {s : State} (hl : s.faulted = false)
    (h : ∀ i, encode i ≠ .cmd w) : illegalCommand w s := by
  refine (execWr_cmd w hl).trans ?_
  cases hd : decodeCmd w with
  | ok i => exact absurd (encodes_of_decodeCmd hd).2 (h i)
  | error e => exact executeCommand_error hd s

/-- Settles O4: every command's word has an assigned opcode. -/
theorem unassignedOpcodesFault : Obligations.UnassignedOpcodesFault := by
  intro w s hl hop
  refine illegalCommand_of_not_encoded hl fun i hi => ?_
  rw [toNat_extract] at hop
  have hw := cmd_fields_of_encode hi
  simp only [List.mem_cons, List.not_mem_nil, or_false] at hw
  omega

/-- Settles O5: every command's word has zeros where it has no argument, and an argument field decodes to its value. -/
theorem nonZeroFieldsFault : Obligations.NonZeroFieldsFault := by
  refine ⟨fun w s hl hz => ?_, fun a b c => ?_⟩
  · refine illegalCommand_of_not_encoded hl fun i hi => ?_
    simp only [ne_eq, extract_eq_zero_iff, toNat_extract] at hz
    have hw := cmd_fields_of_encode hi
    simp only [List.mem_cons, List.not_mem_nil, or_false] at hz hw
    omega
  · simp only [cmdWord_of_oneArg]
    exact ⟨decodeOfEncodeIsTheInstruction (.crcFeed a) rfl, decodeOfEncodeIsTheInstruction (.sendBattery a) rfl,
      decodeOfEncodeIsTheInstruction (.sendGps a) rfl, decodeCmd_sendRaw a b c⟩

/-- Settles O6: the word decodes to no instruction, and rejecting it faults at once. -/
theorem illegalRxWordsFault : Obligations.IllegalRxWordsFault := by
  intro w s rest hl hw hi
  simp only [Set.mem_Icc] at hw
  have hd : decode (.rxw w) = .error (.illegalRxWord w) := decodeRxw_of_illegal (by omega) (by omega)
  simp only [step, takeInput_cons s _ rest hi, Input.codeWord, hd, rejectWord, illegalRxWord]
  exact unlessFrozen_of_live (s := { s with inputs := rest }) hl _

/-- A command run from its word is the command (R92). -/
theorem runCommand_of_decodeCmd {w : Word32} {i : Instr} (h : decodeCmd w = .ok i) (s : State) :
    runCommand w i s = exec i s := by
  rcases decodeCmd_isCommand h with rfl | rfl | ⟨a, rfl⟩ | rfl | rfl | rfl | rfl | ⟨d, rfl⟩ | ⟨d, rfl⟩ | ⟨d, ty, n, rfl⟩ <;>
    rfl

/-- No command has an effect on a frozen block (R263). -/
theorem exec_command_of_frozen {w : Word32} {i : Instr} (h : decodeCmd w = .ok i) {s : State} (hf : s.faulted = true) :
    exec i s = .next s := by
  rcases decodeCmd_isCommand h with rfl | rfl | ⟨a, rfl⟩ | rfl | rfl | rfl | rfl | ⟨d, rfl⟩ | ⟨d, rfl⟩ | ⟨d, ty, n, rfl⟩ <;>
    exact unlessFrozen_of_frozen hf _

/-- Settles O8: on a frozen block neither has an effect, on a live one the write executes the command. -/
theorem cmdWriteRunsItsCommand : Obligations.CmdWriteRunsItsCommand := by
  intro w i s hd
  cases hf : s.faulted with
  | true =>
    rw [exec_command_of_frozen hd hf]
    exact unlessFrozen_of_frozen hf _
  | false =>
    calc
      exec (.wr 0x000 w) s = executeCommand w s := execWr_cmd w hf
      _ = runCommand w i s := executeCommand_ok hd s
      _ = exec i s := runCommand_of_decodeCmd hd s

/-- Settles O3, by running the decoder on the ten words. -/
theorem sampleWordsDecode : Obligations.SampleWordsDecode := by
  unfold Obligations.SampleWordsDecode
  decide

end Sys2Proof.Claims
end

section
/-! PROOFS. The CRC engine (40_crc.md): a step is linear and injective in each argument, so the CRC of a sequence is linear
and tells its bytes apart one at a time (R120 to R128); CRC_CLEAR and CRC_FEED as commands, and a run of them (R123, R124). -/

namespace Sys2Proof.Machine

/-! ### One step -/

/-- A step is an entry of the table, indexed by the accumulator and the byte XORed (R120). -/
theorem crcStep_eq_entry (c b : Byte) : crcStep c b = crcStep 0x00 (c ^^^ b) := by
  rw [crcStep, crcStep, BitVec.ofNat_eq_ofNat, BitVec.zero_xor]

theorem crcStep_xor (c c' b b' : Byte) : crcStep (c ^^^ c') (b ^^^ b') = crcStep c b ^^^ crcStep c' b' := by
  simp only [crcStep, ← crcShifts_xor]
  ac_rfl

theorem crcStep_eq_zero_iff {c b : Byte} : crcStep c b = 0x00 ↔ c = b := by
  constructor
  · exact fun h => BitVec.xor_eq_zero_iff.1 (eq_zero_of_crcShifts _ h)
  · rintro rfl
    rw [crcStep, BitVec.xor_self]
    rfl

/-- Two steps agree exactly when their accumulators and bytes differ in the same bits. -/
theorem crcStep_eq_iff {c c' b b' : Byte} : crcStep c b = crcStep c' b' ↔ c ^^^ c' = b ^^^ b' := by
  rw [← BitVec.xor_eq_zero_iff, ← crcStep_xor]
  exact crcStep_eq_zero_iff

theorem crcStep_left_inj {c c' b : Byte} : crcStep c b = crcStep c' b ↔ c = c' := by
  rw [crcStep_eq_iff, BitVec.xor_self, BitVec.xor_eq_zero_iff]

theorem crcStep_right_inj {c b b' : Byte} : crcStep c b = crcStep c b' ↔ b = b' := by
  rw [crcStep_eq_iff, BitVec.xor_self, eq_comm, BitVec.xor_eq_zero_iff]

/-! ### A sequence of steps, from any accumulator -/

theorem foldl_crcStep_xor {x y : List Byte} (h : x.length = y.length) (c c' : Byte) :
    (List.zipWith (· ^^^ ·) x y).foldl crcStep (c ^^^ c') = x.foldl crcStep c ^^^ y.foldl crcStep c' := by
  induction x generalizing y c c' with
  | nil =>
    obtain rfl := List.length_eq_zero_iff.1 h.symm
    rfl
  | cons a x ih =>
    obtain ⟨b, y, rfl⟩ := List.exists_cons_of_length_eq_add_one h.symm
    rw [List.zipWith_cons_cons, List.foldl_cons, crcStep_xor]
    exact ih (Nat.succ.inj h) _ _

theorem foldl_crcStep_inj (x : List Byte) {c c' : Byte} :
    x.foldl crcStep c = x.foldl crcStep c' ↔ c = c' := by
  induction x generalizing c c' with
  | nil => rfl
  | cons a x ih => exact ih.trans crcStep_left_inj

/-- Sequences that differ in one byte at most have the same CRC only if they are the same there too. -/
theorem crc8_set_inj {x : List Byte} {k : Nat} (h : k < x.length) {b b' : Byte} :
    crc8 (x.set k b) = crc8 (x.set k b') ↔ b = b' := by
  simp only [crc8, List.set_eq_take_append_cons_drop, if_pos h, List.foldl_append, List.foldl_cons]
  exact (foldl_crcStep_inj _).trans crcStep_right_inj

/-! ### CRC_CLEAR and CRC_FEED -/

theorem exec_crcClear_of_live {s : State} (hl : s.faulted = false) :
    exec .crcClear s = .next { s with crcAcc := 0x00 } :=
  unlessFrozen_of_live hl _

theorem exec_crcFeed_of_live {s : State} (hl : s.faulted = false) (a : Byte) :
    exec (.crcFeed a) s = .next { s with crcAcc := crcStep s.crcAcc a } :=
  unlessFrozen_of_live hl _

end Sys2Proof.Machine

namespace Sys2Proof.Claims

open Sys2Proof.Machine Sys2Proof.Safety

/-- A command that completes does so as the write of its word to CMD too (R92). -/
theorem commandGives_of_exec {w : Word32} {i : Instr} {s t : State} (hd : decode (.cmd w) = .ok i)
    (h : exec i s = .next t) : commandGives i w s t :=
  ⟨h, (cmdWriteRunsItsCommand w i s hd).trans h⟩

theorem decode_crcFeedWord (a : Byte) : decode (.cmd (0#16 ++ a ++ 0x03#8)) = .ok (.crcFeed a) := by
  obtain ⟨-, hargs⟩ := nonZeroFieldsFault
  exact (hargs a 0 0).1

theorem commandGives_crcClear {s : State} (hl : live s) :
    commandGives .crcClear 0x00000002 s { s with crcAcc := 0x00 } :=
  commandGives_of_exec (decodeOfEncodeIsTheInstruction .crcClear rfl) (exec_crcClear_of_live hl)

theorem commandGives_crcFeed {s : State} (hl : live s) (a : Byte) :
    commandGives (.crcFeed a) (0#16 ++ a ++ 0x03#8) s { s with crcAcc := crcStep s.crcAcc a } :=
  commandGives_of_exec (decode_crcFeedWord a) (exec_crcFeed_of_live hl a)

/-- A run over a CMD word whose command completes goes on from the state the command gives. -/
theorem runInputs_hostCommand {i : Instr} {w : Word32} {s t : State} (h : commandGives i w s t) (rest : List Input) :
    runInputs (hostCommand w :: rest) s = runInputs rest t := by
  obtain ⟨-, hwrite⟩ := h
  have hd : decode (.bus (1#1 ++ 0#12 ++ w)) = .ok (.wr 0x000 w) := congrArg Except.ok (decodeBus_wr 0 w)
  exact runInputs_cons rfl hd rest hwrite

/-- A run of CRC_FEED commands folds their bytes into the accumulator, whatever it held (R124). -/
theorem runInputs_feedWords {s : State} (hl : live s) (bytes : List Byte) :
    runInputs (bytes.map feedWord) s = .next { s with crcAcc := bytes.foldl crcStep s.crcAcc } := by
  induction bytes generalizing s with
  | nil => exact runInputs_nil s
  | cons a bytes ih =>
    calc
      runInputs ((a :: bytes).map feedWord) s
        = runInputs (bytes.map feedWord) { s with crcAcc := crcStep s.crcAcc a } :=
          runInputs_hostCommand (commandGives_crcFeed hl a) _
      _ = .next { s with crcAcc := (a :: bytes).foldl crcStep s.crcAcc } := ih hl

/-- Settles O25: a step depends on the XOR of its arguments, linearly, and the eight entries are computed. -/
theorem crcStepIsTheTable : Obligations.CrcStepIsTheTable :=
  ⟨crcStep_eq_entry, crcStep_xor 0x00 0x00, by decide⟩

/-- Settles O26: CRC_CLEAR sets the accumulator to where `crc8` begins, and the feeds fold the bytes from there. -/
theorem crcCommandsComputeCrc8 : Obligations.CrcCommandsComputeCrc8 := by
  intro s bytes hl
  calc
    runInputs (hostCommand 0x00000002 :: bytes.map feedWord) s
      = runInputs (bytes.map feedWord) { s with crcAcc := 0x00 } := runInputs_hostCommand (commandGives_crcClear hl) _
    _ = .next { s with crcAcc := crc8 bytes } := runInputs_feedWords (s := { s with crcAcc := 0x00 }) hl bytes

/-- Settles O27: a step gives zero exactly when its byte is the accumulator. -/
theorem crcResidueIsZero : Obligations.CrcResidueIsZero := by
  intro x
  rw [crc8_concat]
  refine ⟨crcStep_eq_zero_iff.2 rfl, fun b h => ?_⟩
  rw [crc8_concat, crcStep_eq_zero_iff] at h
  exact h.symm

/-- Settles O28, from the zero accumulator, which is its own XOR with itself. -/
theorem crcIsLinear : Obligations.CrcIsLinear :=
  fun _ _ h => foldl_crcStep_xor h 0x00 0x00

/-- Settles O29: the CRC tells the two bytes at the changed position apart. -/
theorem crcDetectsEverySingleBitError : Obligations.CrcDetectsEverySingleBitError := by
  intro x k j h hj heq
  have hbyte : x[k] ^^^ BitVec.twoPow 8 j = x[k] := by
    rw [← crc8_set_inj h, List.set_getElem_self h]
    exact heq
  have hbit := congrArg (·.getLsbD j) hbyte
  simp [hj] at hbit

/-- Settles O23: the command completes, and a word with an argument is the encoding of no command. -/
theorem crcClearRestartsTheAccumulator : Obligations.CrcClearRestartsTheAccumulator := by
  intro s hl
  obtain ⟨hillegal, -⟩ := nonZeroFieldsFault
  exact ⟨commandGives_crcClear hl, fun w hop harg => hillegal w s hl (.inl ⟨by rw [hop]; decide, harg⟩)⟩

/-- Settles O24: the command completes, and a word with a second argument is the encoding of no command. -/
theorem crcFeedFoldsItsByte : Obligations.CrcFeedFoldsItsByte := by
  intro s a hl
  obtain ⟨hillegal, -⟩ := nonZeroFieldsFault
  exact ⟨commandGives_crcFeed hl a, fun w hop harg => hillegal w s hl (.inr ⟨by rw [hop]; decide, harg⟩)⟩

end Sys2Proof.Claims
end

section
/-! PROOFS. The channel codec (41_channel_codec.md): `unpack22` and `pack16` both cut one bit stream into fields of another
width, so a bit keeps its stream position, and cutting back restores the fields (R140, R143); CH_UNPACK and CH_PACK as
commands (R145, R146). -/

namespace Sys2Proof.Machine

/-! ### One stream, cut into fields of another width -/

section

variable {v w m n : Nat}

/-- A sequence of `v`-bit fields, joined to a stream and cut into `n` fields of `w` bits. -/
def recut (w n : Nat) (xs : Vector (BitVec v) m) : Vector (BitVec w) n :=
  tabulate n fun i => field w i (joinFields v xs.toList)

theorem unpack22_eq_recut (p : Vector Byte 22) : unpack22 p = recut 11 16 p := rfl

theorem pack16_eq_recut (ch : Vector Chan 16) : pack16 ch = recut 8 22 ch := rfl

/-- Bit `k` of the stream is bit `k mod v` of field `k div v` (R140). -/
theorem joinFields_testBit_of_vector (hv : 0 < v) (xs : Vector (BitVec v) m) {k : Nat} (hk : k / v < m) :
    (joinFields v xs.toList).testBit k = xs[k / v].getLsbD (k % v) := by
  rw [joinFields_testBit v hv, List.getD_eq_getElem _ _ (by simpa using hk), Vector.getElem_toList]

/-- Bit `j` of field `i` after the cut is the bit at stream position `w*i + j` before it (R140). -/
theorem recut_getLsbD (hv : 0 < v) (xs : Vector (BitVec v) m) {i j : Nat} (hi : i < n) (hj : j < w)
    (hk : (w * i + j) / v < m) :
    (recut w n xs)[i].getLsbD j = xs[(w * i + j) / v].getLsbD ((w * i + j) % v) := by
  rw [recut, tabulate_getElem, field_getLsbD _ _ _ _ hj, joinFields_testBit_of_vector hv]

/-- Field `i` ends where field `i + 1` begins, within a stream of `m` fields. -/
theorem streamPosition_lt {i j : Nat} (hi : i < m) (hj : j < v) : v * i + j < v * m :=
  calc
    v * i + j < v * (i + 1) := by rw [Nat.mul_succ]; omega
    _ ≤ v * m := Nat.mul_le_mul_left v hi

/-- Cutting back restores the fields when both cuts cover the same stream: no bit is lost and none is padding (R143). -/
theorem recut_recut (hw : 0 < w) (hlen : v * m = w * n) (xs : Vector (BitVec v) m) :
    recut v m (recut w n xs) = xs := by
  ext i hi j hj
  have hv : 0 < v := Nat.zero_lt_of_lt hj
  have hcut : (v * i + j) / w < n := Nat.div_lt_of_lt_mul (hlen ▸ streamPosition_lt hi hj)
  have hpos : w * ((v * i + j) / w) + (v * i + j) % w = v * i + j := Nat.div_add_mod _ w
  have hdiv : (v * i + j) / v = i := by rw [Nat.mul_add_div hv, Nat.div_eq_of_lt hj, Nat.add_zero]
  have hmod : (v * i + j) % v = j := by rw [Nat.mul_add_mod, Nat.mod_eq_of_lt hj]
  simp only [← BitVec.getLsbD_eq_getElem]
  rw [recut_getLsbD hw _ hi hj hcut, recut_getLsbD hv _ hcut (Nat.mod_lt _ hw) (by rwa [hpos, hdiv])]
  simp only [hpos, hdiv, hmod]

end

theorem unpack22_pack16 (ch : Vector Chan 16) : unpack22 (pack16 ch) = ch := by
  rw [unpack22_eq_recut, pack16_eq_recut]
  exact recut_recut (by decide) (by decide) ch

theorem pack16_unpack22 (p : Vector Byte 22) : pack16 (unpack22 p) = p := by
  rw [unpack22_eq_recut, pack16_eq_recut]
  exact recut_recut (by decide) (by decide) p

/-! ### CH_UNPACK and CH_PACK -/

theorem exec_chUnpack_of_live {s : State} (hl : s.faulted = false) :
    exec .chUnpack s = .next { s with cch := unpack22 s.cpk } :=
  unlessFrozen_of_live hl _

theorem exec_chPack_of_live {s : State} (hl : s.faulted = false) :
    exec .chPack s = .next { s with cpk := pack16 s.cch } :=
  unlessFrozen_of_live hl _

/-- CH_UNPACK of the packed channels finds them in `cch` already (R143, R146). -/
theorem exec_chUnpack_of_packed {s : State} (hl : s.faulted = false) (hp : s.cpk = pack16 s.cch) :
    exec .chUnpack s = .next s := by
  have hcch : unpack22 s.cpk = s.cch := by rw [hp, unpack22_pack16]
  rw [exec_chUnpack_of_live hl, hcch]

end Sys2Proof.Machine

namespace Sys2Proof.Claims

open Sys2Proof.Machine Sys2Proof.Safety

/-- Settles O30: both directions cut the same stream, bytes into channels and channels into bytes. -/
theorem codecFollowsTheBitStream : Obligations.CodecFollowsTheBitStream := by
  refine ⟨fun p i j => ?_, fun ch k j => ?_⟩
  · rw [unpack22_eq_recut]
    exact recut_getLsbD (by decide) p i.isLt j.isLt (by omega)
  · rw [pack16_eq_recut]
    exact recut_getLsbD (by decide) ch k.isLt j.isLt (by omega)

/-- Settles O31: 22 fields of 8 bits and 16 fields of 11 bits cover the same 176 bits. -/
theorem codecRoundTrips : Obligations.CodecRoundTrips :=
  ⟨unpack22_pack16, pack16_unpack22⟩

/-- Settles O33: the command completes, its packed bytes unpack to the channels, and a word with an argument is the encoding
of no command. -/
theorem chPackPacksTheScratch : Obligations.ChPackPacksTheScratch := by
  intro s hl
  obtain ⟨hillegal, -⟩ := nonZeroFieldsFault
  have hd : decode (.cmd 0x00000005) = .ok .chPack := decodeOfEncodeIsTheInstruction .chPack rfl
  exact ⟨commandGives_of_exec hd (exec_chPack_of_live hl),
    exec_chUnpack_of_packed (s := { s with cpk := pack16 s.cch }) hl rfl,
    fun w hop harg => hillegal w s hl (.inl ⟨by rw [hop]; decide, harg⟩)⟩

/-- Settles O32: the command completes, and a word with an argument is the encoding of no command. -/
theorem chUnpackUnpacksTheScratch : Obligations.ChUnpackUnpacksTheScratch := by
  intro s hl
  obtain ⟨hillegal, -⟩ := nonZeroFieldsFault
  have hd : decode (.cmd 0x00000004) = .ok .chUnpack := decodeOfEncodeIsTheInstruction .chUnpack rfl
  exact ⟨commandGives_of_exec hd (exec_chUnpack_of_live hl),
    fun w hop harg => hillegal w s hl (.inl ⟨by rw [hop]; decide, harg⟩)⟩

end Sys2Proof.Claims
end

section
/-! PROOFS. The RX port (42_rx_framer.md): the faults every RX word shares (R161, R264), the two error words (R173,
R174), and which instructions write the framer, the store and `rx_dead` (R160). -/

namespace Sys2Proof.Machine

variable {s t : State} {i : Instr}

/-! ### The checks of an RX port word -/

theorem rxChecked_of_disabled (hl : s.faulted = false) (he : s.en = false) (w : BitVec 10) (k : Result) :
    rxChecked w s k = .next (faultEntry .rxNotEnabled (w.setWidth 32) s) := by
  simp [rxChecked, unlessFrozen_of_live hl, he]

theorem rxChecked_of_dead (hl : s.faulted = false) (he : s.en = true) (hd : s.rxDead = true) (w : BitVec 10)
    (k : Result) : rxChecked w s k = .next (faultEntry .rxAfterDead (w.setWidth 32) s) := by
  simp [rxChecked, unlessFrozen_of_live hl, he, hd]

/-- Every RX port operation makes the shared checks first, with its own word as info (R161). -/
theorem exec_eq_rxChecked {w : BitVec 10} (h : encode i = .rxw w) (s : State) : ∃ k, exec i s = rxChecked w s k := by
  cases i with
  | rxByte | rxErrTransient | rxErrFatal => cases h; exact ⟨_, rfl⟩
  | init | crcClear | crcFeed | chUnpack | chPack | latchCh | latchLink | sendBattery | sendGps | sendRaw | sinkTake
  | sinkFail | rd | wr => cases h

/-! ### Who writes `rx_dead`, the framer and the store -/

/-- The host's commands do not stand on the RX port. -/
theorem decodeCmd_not_rx {w : Word32} (h : decodeCmd w = .ok i) : (∀ d, i ≠ .rxByte d) ∧ i ≠ .rxErrFatal := by
  rcases decodeCmd_isCommand h with rfl | rfl | ⟨a, rfl⟩ | rfl | rfl | rfl | rfl | ⟨d, rfl⟩ | ⟨d, rfl⟩ | ⟨d, ty, n, rfl⟩ <;>
    exact ⟨nofun, nofun⟩

/-- RX_ERR_FATAL sets `rx_dead`, and every other effect leaves it as it was. -/
theorem rxDead_of_effect (e : Effect s i t) : t.rxDead = s.rxDead ∨ (i = .rxErrFatal ∧ t.rxDead = true) := by
  induction e with
  | rxErrFatal => exact .inr ⟨rfl, rfl⟩
  | rxSeek d => rw [rxSeek_frame]; exact .inl rfl
  | rxReadLen d => rw [rxReadLen_frame]; exact .inl rfl
  | rxBody d => rw [rxComplete_frame]; exact .inl rfl
  | sinkTake => rw [endSend_frame]; exact .inl rfl
  | wrData => rw [writeReg_frame]; exact .inl rfl
  | wrCmd _ _ _ _ hd _ ih =>
    obtain ⟨-, hfatal⟩ := decodeCmd_not_rx hd
    exact ih.imp_right fun h => absurd h.1 hfatal
  | _ => exact .inl rfl

/-- The framer (R28 to R32) and the store (R34, R35) are the same in two states. -/
structure SameReception (s t : State) : Prop where
  rxState : t.rxState = s.rxState
  rxDest : t.rxDest = s.rxDest
  rxLen : t.rxLen = s.rxLen
  rxCnt : t.rxCnt = s.rxCnt
  rxBuf : t.rxBuf = s.rxBuf
  stCh : t.stCh = s.stCh
  stChValid : t.stChValid = s.stChValid
  stLink : t.stLink = s.stLink
  stLinkValid : t.stLinkValid = s.stLinkValid

theorem sameReception_of_effect (e : Effect s i t) (hi : ∀ d, i ≠ .rxByte d) : SameReception s t := by
  induction e with
  | rxSeek d | rxReadLen d | rxBody d => exact absurd rfl (hi d)
  | sinkTake => rw [endSend_frame]; constructor <;> rfl
  | wrData => rw [writeReg_frame]; constructor <;> rfl
  | wrCmd _ _ _ _ hd _ ih =>
    obtain ⟨hbyte, -⟩ := decodeCmd_not_rx hd
    exact ih hbyte
  | _ => constructor <;> rfl

end Sys2Proof.Machine

namespace Sys2Proof.Claims

open Sys2Proof.Machine Sys2Proof.Safety

/-- Settles O38: the two faults are those of the checks the RX words share. -/
theorem rxPortFaultsBeforeInitAndAfterDead : Obligations.RxPortFaultsBeforeInitAndAfterDead := by
  intro i w s hl hw
  obtain ⟨k, hk⟩ := exec_eq_rxChecked hw s
  rw [hk]
  exact ⟨fun he => rxChecked_of_disabled hl he w k, fun he hd => rxChecked_of_dead hl he hd w k⟩

/-- Settles O40: RX_ERR_FATAL is one of the RX words, and it alone writes `rx_dead`, setting it. -/
theorem fatalErrorSetsRxDead : Obligations.FatalErrorSetsRxDead := by
  refine ⟨rfl, fun i s t h hdead => ?_, fun s => ⟨fun ⟨hl, he, hd⟩ => rxChecked_of_receiving hl he hd _ _,
    fun hl he => rxChecked_of_disabled hl he _ _, fun hl he hd => rxChecked_of_dead hl he hd _ _⟩⟩
  rcases rxDead_of_effect (exec_effect h) with hkept | ⟨-, hset⟩
  · exact hkept.trans hdead
  · exact hset

/-- Settles O58, by the cases of an instruction's effect. -/
theorem onlyRxByteChangesFramerAndStore : Obligations.OnlyRxByteChangesFramerAndStore := by
  intro i s t h hi
  have e := exec_effect h
  obtain ⟨hstate, hdest, hlen, hcnt, hbuf, hch, hchValid, hlink, hlinkValid⟩ := sameReception_of_effect e hi
  refine ⟨hstate, hdest, hlen, hcnt, hbuf, hch, hchValid, hlink, hlinkValid, fun hne => ?_⟩
  rcases rxDead_of_effect e with hkept | ⟨hfatal, -⟩
  · exact absurd hkept hne
  · exact hfatal

/-- Settles O39: RX_ERR_TRANSIENT is one of the RX words, with no effect of its own. -/
theorem transientErrorChangesNothing : Obligations.TransientErrorChangesNothing :=
  ⟨rfl, fun _ => ⟨fun ⟨hl, he, hd⟩ => rxChecked_of_receiving hl he hd _ _,
    fun hl he => rxChecked_of_disabled hl he _ _, fun hl he hd => rxChecked_of_dead hl he hd _ _⟩⟩

end Sys2Proof.Claims
end

section
/-! PROOFS. The framer (42_rx_framer.md): what one received byte does in each of its states (R162 to R169), then
what a run of noise (R177), a valid frame (R165 to R169) and a corrupt one (R176) do. -/

namespace Sys2Proof.Machine

open Sys2Proof.Safety

variable {s : State}

/-! ### SEEK_SYNC and READ_LEN -/

/-- The sync bytes are the two destinations of R4. -/
theorem isSync_iff {b : Byte} : isSync b = true ↔ b = 0xC8 ∨ b = 0xEA := by
  simp [isSync, Config.syncFc, Config.syncRadio]

theorem exec_rxByte_of_seekSync (hr : receiving s) (hs : s.rxState = .seekSync) (d : Byte) :
    exec (.rxByte d) s = .next (rxSeek d s) := by
  obtain ⟨hl, he, hd⟩ := hr
  simp only [exec, execRxByte, rxChecked_of_receiving hl he hd, hs]

theorem exec_rxByte_of_readLen (hr : receiving s) (hs : s.rxState = .readLen) (d : Byte) :
    exec (.rxByte d) s = .next (rxReadLen d s) := by
  obtain ⟨hl, he, hd⟩ := hr
  simp only [exec, execRxByte, rxChecked_of_receiving hl he hd, hs]

/-- A sync byte starts a frame (R162). -/
theorem exec_rxByte_sync (hr : receiving s) (hs : s.rxState = .seekSync) {d : Byte} (hd : d = 0xC8 ∨ d = 0xEA) :
    exec (.rxByte d) s = .next { s with rxDest := d, rxState := .readLen } := by
  rw [exec_rxByte_of_seekSync hr hs, rxSeek, if_pos (isSync_iff.2 hd)]

/-- Every other byte is noise in SEEK_SYNC (R162). -/
theorem exec_rxByte_noise (hr : receiving s) (hs : s.rxState = .seekSync) {d : Byte} (hd : d ≠ 0xC8 ∧ d ≠ 0xEA) :
    exec (.rxByte d) s = .next s := by
  rw [exec_rxByte_of_seekSync hr hs, rxSeek, if_neg (by rwa [isSync_iff, not_or])]

/-- A length of 2 to 62 opens a body (R163). -/
theorem exec_rxByte_len (hr : receiving s) (hs : s.rxState = .readLen) {d : Byte} (hmin : 2 ≤ d.toNat)
    (hmax : d.toNat ≤ 62) :
    exec (.rxByte d) s = .next { s with rxLen := d, rxCnt := 0, rxState := .readBody } := by
  rw [exec_rxByte_of_readLen hr hs, rxReadLen, if_pos ⟨hmin, hmax⟩]

/-- Any other length is consumed (R163). -/
theorem exec_rxByte_badLen (hr : receiving s) (hs : s.rxState = .readLen) {d : Byte} (hd : d.toNat < 2 ∨ 62 < d.toNat) :
    exec (.rxByte d) s = .next (toSeek s) := by
  have hout : ¬ (Config.lenMin ≤ d.toNat ∧ d.toNat ≤ Config.lenMax) := by
    simp only [Config.lenMin, Config.lenMax]
    omega
  rw [exec_rxByte_of_readLen hr hs, rxReadLen, if_neg hout]

/-! ### READ_BODY -/

theorem exec_rxByte_of_readBody (hr : receiving s) (hs : s.rxState = .readBody) (hc : s.rxCnt.toNat < 62) (d : Byte) :
    exec (.rxByte d) s = .next (rxComplete (rxStore d s)) := by
  obtain ⟨hl, he, hd⟩ := hr
  simp only [exec, execRxByte, rxChecked_of_receiving hl he hd, hs, rxBody, if_pos hc]

/-- Within `rx_buf` the byte is stored at `rx_cnt` (R164). -/
theorem rxStore_eq_set (hc : s.rxCnt.toNat < 62) (d : Byte) :
    rxStore d s = { s with rxBuf := s.rxBuf.set s.rxCnt.toNat d, rxCnt := s.rxCnt + 1 } := by
  have hset : s.rxBuf.setIfInBounds s.rxCnt.toNat d = s.rxBuf.set s.rxCnt.toNat d := by
    ext k hk
    rw [Vector.getElem_setIfInBounds, Vector.getElem_set]
  rw [rxStore, hset]

/-- The stored byte extends the body received so far (R164). -/
theorem take_rxStore (hc : s.rxCnt.toNat < 62) (d : Byte) :
    (rxStore d s).rxBuf.toList.take (s.rxCnt.toNat + 1) = s.rxBuf.toList.take s.rxCnt.toNat ++ [d] := by
  rw [rxStore_eq_set hc, Vector.toList_set, List.take_add_one, List.take_set_of_le le_rfl,
    List.getElem?_set_self (by simpa)]
  rfl

/-- A body byte that is not the last waits in `rx_buf` (R164). -/
theorem exec_rxByte_body (hr : receiving s) (hs : s.rxState = .readBody) (hc : s.rxCnt.toNat < 62)
    (hlen : s.rxCnt.toNat + 1 ≠ s.rxLen.toNat) (d : Byte) : exec (.rxByte d) s = .next (rxStore d s) := by
  have hopen : (rxStore d s).rxCnt.toNat ≠ (rxStore d s).rxLen.toNat := by
    rwa [rxStore_rxCnt_toNat hc]
  rw [exec_rxByte_of_readBody hr hs hc, rxComplete_of_incomplete hopen]

/-- Validation reads and writes none of the elements that the return to SEEK_SYNC clears (R165, R169). -/
theorem toSeek_validateBody (body : List Byte) (s : State) :
    toSeek (validateBody body s) = validateBody body (toSeek s) := by
  unfold validateBody dispatch dispatchChannels dispatchLink
  split_ifs <;> rfl

/-- The last byte of a body has it validated, with the framer back at its start (R164, R165, R169). -/
theorem exec_rxByte_lastBody (hr : receiving s) (hs : s.rxState = .readBody) (hc : s.rxCnt.toNat < 62)
    (hlen : s.rxLen.toNat = s.rxCnt.toNat + 1) (d : Byte) :
    exec (.rxByte d) s = .next (validateBody (s.rxBuf.toList.take s.rxCnt.toNat ++ [d])
      (toSeek { s with rxBuf := s.rxBuf.set s.rxCnt.toNat d })) := by
  have hfull : (rxStore d s).rxCnt.toNat = (rxStore d s).rxLen.toNat := (rxStore_rxCnt_toNat hc d).trans hlen.symm
  have hbody :
      (rxStore d s).rxBuf.toList.take (rxStore d s).rxLen.toNat = s.rxBuf.toList.take s.rxCnt.toNat ++ [d] := by
    rw [← take_rxStore hc, ← hlen]
    rfl
  rw [exec_rxByte_of_readBody hr hs hc, rxComplete_eq_of_complete hfull, rxValidate, toSeek_validateBody, hbody,
    rxStore_eq_set hc]
  rfl

/-! ### Validation and dispatch -/

/-- A body whose last byte is not the CRC of the rest changes nothing (R165). -/
theorem validateBody_of_corrupt {body : List Byte} (h : crc8 body.dropLast ≠ body.getLastD 0) (s : State) :
    validateBody body s = s :=
  if_neg h

/-- A body of type, payload and one more byte is dispatched by its type if that byte is their CRC (R165). -/
theorem validateBody_eq (type : Byte) (payload : List Byte) (d : Byte) (s : State) :
    validateBody (type :: payload ++ [d]) s = if d = crc8 (type :: payload) then dispatch type payload s else s := by
  rw [validateBody, List.dropLast_concat, List.getLastD_concat]
  simp only [eq_comm]
  rfl

/-- Filling a buffer with a buffer of its own size gives that buffer back. -/
theorem fillBytes_vector {n : Nat} (p : Vector Byte n) : fillBytes n p.toList = p :=
  Vector.toList_inj.1 (fillBytes_toList_self p.length_toList)

/-- A channels frame of 22 payload bytes replaces the channel snapshot whole (R166). -/
theorem dispatch_channels (p : Vector Byte 22) (s : State) :
    dispatch 0x16 p.toList s = { s with stCh := unpack22 p, stChValid := true } := by
  rw [dispatch, Config.typeChannels, if_pos rfl, dispatchChannels, if_pos p.length_toList, fillBytes_vector]

/-- A link frame of 10 payload bytes replaces the link snapshot whole (R167). -/
theorem dispatch_link (p : Vector Byte 10) (s : State) :
    dispatch 0x14 p.toList s = { s with stLink := p, stLinkValid := true } := by
  rw [dispatch, if_neg (by decide), Config.typeLink, if_pos rfl, dispatchLink, if_pos p.length_toList, fillBytes_vector]

/-- Every other frame is ignored (R166 to R168). -/
theorem dispatch_ignored {type : Byte} {payload : List Byte} (hch : ¬ (type = 0x16 ∧ payload.length = 22))
    (hlink : ¬ (type = 0x14 ∧ payload.length = 10)) (s : State) : dispatch type payload s = s := by
  unfold dispatch dispatchChannels dispatchLink
  split_ifs with ht hn ht' hn
  · exact absurd ⟨ht, hn⟩ hch
  · rfl
  · exact absurd ⟨ht', hn⟩ hlink
  · rfl
  · rfl

end Sys2Proof.Machine

namespace Sys2Proof.Safety

open Sys2Proof.Machine Sys2Proof.Claims

variable {s t : State}

/-! ### Runs of received bytes -/

theorem receive_nil (s : State) : receive [] s = .next s := runInputs_nil s

/-- A run over a received byte goes on from the state the byte gives. -/
theorem receive_cons {b : Byte} (h : exec (.rxByte b) s = .next t) (bytes : List Byte) :
    receive (b :: bytes) s = receive bytes t := by
  have hd : decode (.rxw (0#2 ++ b)) = .ok (.rxByte b) := decodeRxw_byte b
  exact runInputs_cons rfl hd _ h

/-- The rest of a body ends in the validation of all of it, wherever its bytes stand in `rx_buf` (R164). -/
theorem receive_body {bytes : List Byte} (hne : bytes ≠ []) (hr : receiving s) (hs : s.rxState = .readBody)
    (hmax : s.rxLen.toNat ≤ 62) (hlen : s.rxLen.toNat = s.rxCnt.toNat + bytes.length) :
    ∃ b, ∀ rest, receive (bytes ++ rest) s =
      receive rest (validateBody (s.rxBuf.toList.take s.rxCnt.toNat ++ bytes) (toSeek { s with rxBuf := b })) := by
  induction bytes generalizing s with
  | nil => exact absurd rfl hne
  | cons d bytes ih =>
    rw [List.length_cons] at hlen
    have hc : s.rxCnt.toNat < 62 := by omega
    cases bytes with
    | nil => exact ⟨_, receive_cons (exec_rxByte_lastBody hr hs hc hlen d)⟩
    | cons d' bytes =>
      rw [List.length_cons] at hlen
      have hcnt := rxStore_rxCnt_toNat hc d
      have hlen' : (rxStore d s).rxLen.toNat = (rxStore d s).rxCnt.toNat + (d' :: bytes).length := by
        rw [hcnt, List.length_cons]
        exact hlen.trans (by omega)
      obtain ⟨b, hb⟩ := ih (s := rxStore d s) (List.cons_ne_nil _ _) hr hs hmax hlen'
      rw [hcnt, take_rxStore hc, List.append_assoc] at hb
      have hstored := exec_rxByte_body hr hs hc (by omega) d
      exact ⟨b, fun rest => (receive_cons hstored _).trans (hb rest)⟩

/-- A frame of any body is consumed whole: its body is validated, and of the rest only the framer and `rx_buf` are touched
(R162 to R165, R169). -/
theorem receive_frame {dest len : Byte} {body : List Byte} (hr : receiving s) (hs : s.rxState = .seekSync)
    (hdest : dest = 0xC8 ∨ dest = 0xEA) (hmin : 2 ≤ len.toNat) (hmax : len.toNat ≤ 62)
    (hbody : body.length = len.toNat) :
    ∃ b, ∀ rest, receive (dest :: len :: body ++ rest) s =
      receive rest (validateBody body (toSeek { s with rxBuf := b })) := by
  have hne : body ≠ [] := List.ne_nil_of_length_pos (by omega)
  obtain ⟨b, hb⟩ := receive_body (s := { s with rxDest := dest, rxLen := len, rxCnt := 0, rxState := .readBody }) hne hr
    rfl hmax (by simpa using hbody.symm)
  refine ⟨b, fun rest => ?_⟩
  calc
    receive (dest :: len :: body ++ rest) s
      = receive (len :: body ++ rest) { s with rxDest := dest, rxState := .readLen } :=
        receive_cons (exec_rxByte_sync hr hs hdest) _
    _ = receive (body ++ rest) { s with rxDest := dest, rxLen := len, rxCnt := 0, rxState := .readBody } :=
        receive_cons (exec_rxByte_len (s := { s with rxDest := dest, rxState := .readLen }) hr rfl hmin hmax) _
    _ = receive rest (validateBody body (toSeek { s with rxBuf := b })) := hb rest

/-- A valid frame is dispatched by its type (R165). -/
theorem receive_wireFrame {dest type : Byte} {payload : List Byte} (hr : receiving s) (hs : s.rxState = .seekSync)
    (hdest : dest = 0xC8 ∨ dest = 0xEA) (hp : payload.length ≤ 60) :
    ∃ b, receive (wireFrame dest type payload) s = .next (dispatch type payload (toSeek { s with rxBuf := b })) := by
  have hlen : (BitVec.ofNat 8 (payload.length + 2)).toNat = payload.length + 2 := by
    rw [BitVec.toNat_ofNat]
    omega
  obtain ⟨b, hb⟩ := receive_frame (len := BitVec.ofNat 8 (payload.length + 2))
    (body := type :: payload ++ [crc8 (type :: payload)]) hr hs hdest (by omega) (by omega) (by rw [hlen]; simp)
  refine ⟨b, ?_⟩
  have hend := hb []
  rwa [List.append_nil, validateBody_eq, if_pos rfl, receive_nil] at hend

/-- A valid frame's dispatch, with the framer back at its start, is the effect R165 to R169 give it. -/
theorem afterFrame_dispatch (type : Byte) (payload : List Byte) (b : Vector Byte 62) (s : State) :
    afterFrame type payload s (dispatch type payload (toSeek { s with rxBuf := b })) := by
  by_cases hch : type = 0x16 ∧ payload.length = 22
  · obtain ⟨rfl, hn⟩ := hch
    obtain ⟨p, rfl⟩ : ∃ p : Vector Byte 22, p.toList = payload := ⟨⟨payload.toArray, hn⟩, rfl⟩
    rw [dispatch_channels]
    refine ⟨rfl, rfl, rfl, rfl, ?_, ?_, rfl⟩
    · rw [if_pos ⟨rfl, hn⟩]
      exact ⟨rfl, fun q hq => congrArg unpack22 (Vector.toList_inj.1 hq.symm)⟩
    · rw [if_neg fun ⟨hty, _⟩ => absurd hty (by decide)]
      exact ⟨rfl, rfl⟩
  by_cases hlink : type = 0x14 ∧ payload.length = 10
  · obtain ⟨rfl, hn⟩ := hlink
    obtain ⟨p, rfl⟩ : ∃ p : Vector Byte 10, p.toList = payload := ⟨⟨payload.toArray, hn⟩, rfl⟩
    rw [dispatch_link]
    refine ⟨rfl, rfl, rfl, rfl, ?_, ?_, rfl⟩
    · rw [if_neg hch]
      exact ⟨rfl, rfl⟩
    · rw [if_pos ⟨rfl, hn⟩]
      exact ⟨rfl, rfl⟩
  · rw [dispatch_ignored hch hlink]
    refine ⟨rfl, rfl, rfl, rfl, ?_, ?_, rfl⟩
    · rw [if_neg hch]
      exact ⟨rfl, rfl⟩
    · rw [if_neg hlink]
      exact ⟨rfl, rfl⟩

end Sys2Proof.Safety

namespace Sys2Proof.Claims

open Sys2Proof.Machine Sys2Proof.Safety

/-- Settles O37: the byte completes the body, whose validation either fails or dispatches it by type. -/
theorem lastBodyByteValidatesAndDispatches : Obligations.LastBodyByteValidatesAndDispatches := by
  intro s d type payload hc hr hs hlen hbody t
  have hlast := exec_rxByte_lastBody hr hs hc hlen d
  rw [hbody, validateBody_eq] at hlast
  refine ⟨fun hd => hlast.trans (by rw [if_neg hd]; rfl), fun hd => ?_⟩
  rw [if_pos hd] at hlast
  refine ⟨?_, ?_, fun hch hlink => ?_⟩
  · rintro p rfl rfl
    rw [hlast, dispatch_channels]
    rfl
  · rintro p rfl rfl
    rw [hlast, dispatch_link]
    rfl
  · rw [hlast, dispatch_ignored hch hlink]
    rfl

/-- Settles O41, by induction on the noise: each byte is discarded. -/
theorem noiseIsSkipped : Obligations.NoiseIsSkipped := by
  intro s noise hr hs hnoise
  induction noise with
  | nil => exact receive_nil s
  | cons b noise ih =>
    obtain ⟨hb, hrest⟩ := List.forall_mem_cons.1 hnoise
    exact (receive_cons (exec_rxByte_noise hr hs hb) noise).trans (ih hrest)

/-- Settles O42: the frame is consumed byte by byte up to its CRC, which has it dispatched. -/
theorem validFrameIsReceived : Obligations.ValidFrameIsReceived := by
  intro s dest type payload hr hs hdest hp
  obtain ⟨b, hb⟩ := receive_wireFrame hr hs hdest hp
  exact ⟨_, hb, afterFrame_dispatch type payload b s⟩

/-- Settles O43: what the corrupt frame leaves is the state with another `rx_buf` and the framer at its start, where the
valid frame is received, and its dispatch sees no difference. -/
theorem corruptFrameIsDiscarded : Obligations.CorruptFrameIsDiscarded := by
  intro s dest len body hr hs hdest hmin hmax hlen hcrc
  obtain ⟨b, hb⟩ := receive_frame hr hs hdest hmin hmax hlen
  rw [validateBody_of_corrupt hcrc] at hb
  refine ⟨⟨toSeek { s with rxBuf := b }, ?_, rfl⟩, fun dest' type payload hdest' hp => ?_⟩
  · have hend := hb []
    rwa [List.append_nil, receive_nil] at hend
  · obtain ⟨b', hb'⟩ := receive_wireFrame (s := toSeek { s with rxBuf := b }) hr rfl hdest' hp
    exact ⟨_, (hb _).trans hb', afterFrame_dispatch type payload b' s⟩

/-- Settles O34: the sync bytes are the two the framer takes. -/
theorem seekTakesOnlySyncBytes : Obligations.SeekTakesOnlySyncBytes :=
  fun _ _ hr hs => ⟨exec_rxByte_sync hr hs, fun hfc hradio => exec_rxByte_noise hr hs ⟨hfc, hradio⟩⟩

/-- Settles O35: the accepted lengths are those within the two bounds. -/
theorem readLenAcceptsTwoToSixtyTwo : Obligations.ReadLenAcceptsTwoToSixtyTwo :=
  fun _ _ hr hs => ⟨exec_rxByte_len hr hs, exec_rxByte_badLen hr hs⟩

/-- Settles O36: the byte is stored, and the body is not complete. -/
theorem readBodyAccumulates : Obligations.ReadBodyAccumulates := by
  intro s d hc hr hs hlen
  rw [exec_rxByte_body hr hs hc hlen, rxStore_eq_set hc]

end Sys2Proof.Claims
end

section
/-! PROOFS. The frame in `tx_buf` and the bytes on the wire (43_tx_builder.md R200, R208, R211): every effect keeps the
transmission, starts one of a sound frame, or moves its next bytes to the wire. -/

namespace Sys2Proof.Machine

variable {s t : State} {i : Instr} {frame p : List Byte}

/-- A property that reset establishes and every effect keeps, and that no word still to come matters to, is kept by every
step. -/
theorem kept_by_step {P : State → Prop} (hinputs : ∀ s rest, P s → P { s with inputs := rest })
    (hreset : ∀ s, P (resetBlock s)) (heffect : ∀ s i t, Effect s i t → P s → P t) (hs : step s = .next t)
    (h : P s) : P t := by
  rcases step_cases hs with ⟨-, rfl⟩ | ⟨inp, rest, -, hcase⟩
  · exact h
  · have hrest := hinputs s rest h
    rcases hcase with ⟨-, rfl⟩ | ⟨c, i, -, -, e⟩ | rfl | ⟨hl, code, info, hc, rfl⟩
    · exact hreset _
    · exact heffect _ i t e hrest
    · exact hrest
    · exact heffect _ _ _ (.fault .init code info hl hc) hrest

/-! ### The built frame -/

theorem buildFrame_length (d ty : Byte) (p : List Byte) : (buildFrame d ty p).length = p.length + 4 := by
  simp [buildFrame]

/-- A frame of at most 64 bytes stands in `tx_buf` whole, with zeros after it (R200). -/
theorem startTx_txBuf_toList (h : frame.length ≤ 64) (s : State) :
    (startTx frame s).txBuf.toList = frame ++ List.replicate (64 - frame.length) 0 := by
  rw [startTx_txBuf, fillBytes_toList, List.take_append, List.take_of_length_le h, List.take_replicate,
    min_eq_left (Nat.sub_le _ _)]

theorem startTx_txLen_toNat (h : frame.length ≤ 64) (s : State) : (startTx frame s).txLen.toNat = frame.length := by
  rw [startTx_txLen, BitVec.toNat_ofNat]
  omega

theorem builtFrame_startTx (h : frame.length ≤ 64) (s : State) : Safety.builtFrame (startTx frame s) = frame := by
  rw [Safety.builtFrame, startTx_txBuf_toList h, startTx_txLen_toNat h, List.take_left]

/-- A frame built for a sync destination from at most 60 payload bytes is a frame of the wire format (R200, R203). -/
theorem soundFrame_buildFrame {d : Byte} (hd : isSync d = true) (hp : p.length ≤ 60) (ty : Byte) :
    Safety.soundFrame (buildFrame d ty p) := by
  refine ⟨hd, ?_, ?_⟩
  · have hlen : ((buildFrame d ty p).getD 1 0).toNat = (p.length + 2) % 2 ^ 8 := BitVec.toNat_ofNat _ _
    rw [hlen, buildFrame_length]
    omega
  · have hbody : (buildFrame d ty p).drop 2 = ty :: p ++ [crc8 (ty :: p)] := rfl
    rw [hbody, List.dropLast_concat, buildFrame, List.getLastD_concat]

@[simp] theorem batteryPayload_length (s : State) : (batteryPayload s).length = 8 := rfl

@[simp] theorem gpsPayload_length (s : State) : (gpsPayload s).length = 15 := rfl

/-- A payload taken from `txp` is within the payload bound (R204, R207). -/
theorem take_txp_length_le (s : State) (n : Nat) : (s.txp.toList.take n).length ≤ 60 := by
  simp

/-- A SEND's arguments are accepted for a sync destination only (R204). -/
theorem isSync_of_sendArgsOk {d ty : Byte} {n : Nat} (h : sendArgsOk d ty n = true) : isSync d = true := by
  simp only [sendArgsOk, Bool.and_eq_true] at h
  obtain ⟨⟨hd, -⟩, -⟩ := h
  exact hd

/-! ### What an effect does to the transmission -/

/-- The ways the frame, the position in it and the wire may go from one state to the next. -/
inductive TxProgress (s t : State) : Prop where
  /-- Frame, position and wire stay. -/
  | kept (hbuf : t.txBuf = s.txBuf) (hlen : t.txLen = s.txLen) (hpos : t.txPos = s.txPos) (hwire : t.wire = s.wire)
  /-- The transmission of a built frame starts while none is in flight (R200). -/
  | started (d ty : Byte) (p : List Byte) (hb : s.txBusy = false) (hd : isSync d = true) (hp : p.length ≤ 60)
      (ht : t = startTx (buildFrame d ty p) s)
  /-- The next bytes of the frame leave on the wire (R208). -/
  | took (n : Nat) (hbuf : t.txBuf = s.txBuf) (hlen : t.txLen = s.txLen) (hpos : t.txPos.toNat = s.txPos.toNat + n)
      (hwire : t.wire = s.wire ++ offered n s)

theorem txProgress_of_effect (e : Effect s i t) : TxProgress s t := by
  induction e with
  | sendBattery d _ _ hb ha => exact .started d _ _ hb (isSync_of_sendArgsOk ha) (by simp) rfl
  | sendGps d _ _ hb ha => exact .started d _ _ hb (isSync_of_sendArgsOk ha) (by simp) rfl
  | sendRaw d ty n _ _ hb ha => exact .started d ty _ hb (isSync_of_sendArgsOk ha) (take_txp_length_le s n) rfl
  | sinkTake n _ _ hn =>
    rw [endSend_frame]
    exact .took n rfl rfl (by rw [BitVec.toNat_ofNat]; omega) rfl
  | rxSeek d => rw [rxSeek_frame]; exact .kept rfl rfl rfl rfl
  | rxReadLen d => rw [rxReadLen_frame]; exact .kept rfl rfl rfl rfl
  | rxBody d => rw [rxComplete_frame]; exact .kept rfl rfl rfl rfl
  | wrData => rw [writeReg_frame]; exact .kept rfl rfl rfl rfl
  | wrCmd _ _ _ _ _ _ ih => exact ih
  | _ => exact .kept rfl rfl rfl rfl

end Sys2Proof.Machine

namespace Sys2Proof.Safety

open Sys2Proof.Machine

variable {s t : State} {i : Instr}

/-! ### The frame stays sound -/

/-- The soundness of the built frame is a property of `tx_buf` and `tx_len`. -/
theorem builtFrameOk_congr (hbuf : t.txBuf = s.txBuf) (hlen : t.txLen = s.txLen) (h : builtFrameOk s) :
    builtFrameOk t := by
  rwa [builtFrameOk, builtFrame, hbuf, hlen]

theorem builtFrameOk_startTx {d : Byte} {p : List Byte} (hd : isSync d = true) (hp : p.length ≤ 60) (ty : Byte)
    (s : State) : builtFrameOk (startTx (buildFrame d ty p) s) := by
  have hlen : (buildFrame d ty p).length ≤ 64 := by
    rw [buildFrame_length]
    omega
  refine .inr ⟨(startTx_txLen_toNat hlen s).trans_le hlen, ?_⟩
  rw [builtFrame_startTx hlen]
  exact soundFrame_buildFrame hd hp ty

theorem builtFrameOk_of_effect (e : Effect s i t) (h : builtFrameOk s) : builtFrameOk t := by
  cases txProgress_of_effect e with
  | kept hbuf hlen _ _ => exact builtFrameOk_congr hbuf hlen h
  | started d ty p _ hd hp ht => exact ht ▸ builtFrameOk_startTx hd hp ty s
  | took _ hbuf hlen _ _ => exact builtFrameOk_congr hbuf hlen h

/-! ### The wire stays in order -/

/-- A transmission that has not begun to leave has left nothing out of order. -/
theorem wireOk_of_txPos_zero (h : s.txPos = 0) : wireOk s := by
  rw [wireOk, h]
  exact List.nil_suffix

/-- The bytes offered are the ones after those already taken (R208). -/
theorem take_append_offered (n : Nat) (s : State) :
    s.txBuf.toList.take (s.txPos.toNat + n) = s.txBuf.toList.take s.txPos.toNat ++ offered n s :=
  List.take_add

theorem wireOk_of_effect (e : Effect s i t) (h : wireOk s) : wireOk t := by
  cases txProgress_of_effect e with
  | kept hbuf _ hpos hwire => rwa [wireOk, hbuf, hpos, hwire]
  | started _ _ _ _ _ _ ht => exact wireOk_of_txPos_zero (ht ▸ rfl)
  | took n hbuf _ hpos hwire =>
    rw [wireOk, hbuf, hpos, hwire, take_append_offered]
    exact (List.suffix_append_inj_of_length_eq rfl).2 ⟨h, rfl⟩

end Sys2Proof.Safety

namespace Sys2Proof.Claims

open Sys2Proof.Machine Sys2Proof.Safety

/-- Settles O14: a step that changes the frame starts one the builder made for a sync destination. -/
theorem everyStepKeepsTheBuiltFrameSound : Obligations.EveryStepKeepsTheBuiltFrameSound :=
  fun _ _ h hs => kept_by_step (P := builtFrameOk) (fun _ _ h => h) (fun _ => .inl rfl)
    (fun _ _ _ => builtFrameOk_of_effect) hs h

/-- Settles O15: a SINK_TAKE extends both the bytes taken and the wire by the bytes offered. -/
theorem everyStepKeepsTheWireInOrder : Obligations.EveryStepKeepsTheWireInOrder :=
  fun _ _ h hs => kept_by_step (P := wireOk) (fun _ _ h => h) (fun _ => wireOk_of_txPos_zero rfl)
    (fun _ _ _ => wireOk_of_effect) hs h

end Sys2Proof.Claims
end

section
/-! PROOFS. The SEND commands (43_tx_builder.md R205 to R207): the checks they share in the order of R264, then for each
the frame it builds; the framer reads a built frame back (R166), and a frame in flight is fixed (R212, R214). -/

namespace Sys2Proof.Machine

variable {s : State} {w : Word32} {d ty : Byte} {n : Nat}

/-! ### The checks the SEND commands share -/

theorem sendFrame_of_disabled (hl : s.faulted = false) (he : s.en = false) (p : List Byte) :
    sendFrame w d ty n p s = .next (faultEntry .notEnabled w s) := by
  simp [sendFrame, unlessFrozen_of_live hl, he]

theorem sendFrame_of_busy (hl : s.faulted = false) (he : s.en = true) (hb : s.txBusy = true) (p : List Byte) :
    sendFrame w d ty n p s = .next (faultEntry .txOverlap w s) := by
  simp [sendFrame, unlessFrozen_of_live hl, he, hb]

theorem sendFrame_of_badArgs (hs : Safety.maySend s) (ha : sendArgsOk d ty n = false) (p : List Byte) :
    sendFrame w d ty n p s = .next (faultEntry .badArg w s) := by
  obtain ⟨hl, he, hb⟩ := hs
  simp [sendFrame, unlessFrozen_of_live hl, he, hb, ha]

/-- The argument check of R204, with the sizes of R203 written out. -/
theorem sendArgsOk_iff :
    sendArgsOk d ty n = true ↔ (d = 0xC8 ∨ d = 0xEA) ∧ n ≤ 60 ∧
      (ty = 0x16 → n = 22) ∧ (ty = 0x14 → n = 10) ∧ (ty = 0x08 → n = 8) ∧ (ty = 0x02 → n = 15) := by
  rw [sendArgsOk, Bool.and_eq_true, Bool.and_eq_true, isSync_iff, decide_eq_true_iff, and_assoc]
  refine and_congr_right fun _ => and_congr_right fun _ => ?_
  unfold fixedSize Config.typeChannels Config.typeLink Config.typeBattery Config.typeGps
  split_ifs with hch hlink hbat hgps
  · simp [hch]
  · simp [hlink]
  · simp [hbat]
  · simp [hgps]
  · exact iff_of_true rfl
      ⟨fun h => absurd h hch, fun h => absurd h hlink, fun h => absurd h hbat, fun h => absurd h hgps⟩

/-- A payload of its type's own size is accepted for the sync destinations, and for no other (R203, R204). -/
theorem sendArgsOk_of_fixedSize (h : fixedSize ty = some n) (hn : n ≤ 60) : sendArgsOk d ty n = isSync d := by
  simp [sendArgsOk, h, Config.txPayloadMax, hn]

/-! ### The GPS altitude's offset -/

theorem gpsAltEncoderOffset_cases : Config.gpsAltEncoderOffset = 0 ∨ Config.gpsAltEncoderOffset = 1000 := by
  unfold Config.gpsAltEncoderOffset
  split
  · exact .inr rfl
  · exact .inl rfl

end Sys2Proof.Machine

namespace Sys2Proof.Claims

open Sys2Proof.Machine Sys2Proof.Safety

/-- The command `i`, from its word `w`, is the SEND of a payload `p` that fits a frame, its argument check made on the
length `n`. -/
structure SendsPayload (i : Instr) (w : Word32) (d ty : Byte) (n : Nat) (p : List Byte) (s : State) : Prop where
  decoded : decode (.cmd w) = .ok i
  exec_eq : exec i s = sendFrame w d ty n p s
  length_le : p.length ≤ 60

namespace SendsPayload

variable {i : Instr} {w : Word32} {d ty : Byte} {n : Nat} {p : List Byte} {s : State}

theorem gives (h : SendsPayload i w d ty n p s) (hs : maySend s) (ha : sendArgsOk d ty n = true) :
    sendGives i w s (buildFrame d ty p) := by
  obtain ⟨hl, he, hb⟩ := hs
  have hlen : (buildFrame d ty p).length ≤ 64 := by
    rw [buildFrame_length]
    exact Nat.add_le_add_right h.length_le 4
  exact ⟨startTx (buildFrame d ty p) s,
    commandGives_of_exec h.decoded (h.exec_eq.trans (sendFrame_of_maySend hl he hb w ha p)),
    startTx_txBuf_toList hlen s, rfl⟩

theorem notEnabled (h : SendsPayload i w d ty n p s) (hl : live s) (he : s.en = false) :
    commandGives i w s (faulting .notEnabled w s) :=
  commandGives_of_exec h.decoded (h.exec_eq.trans (sendFrame_of_disabled hl he p))

theorem txOverlap (h : SendsPayload i w d ty n p s) (hl : live s) (he : s.en = true) (hb : s.txBusy = true) :
    commandGives i w s (faulting .txOverlap w s) :=
  commandGives_of_exec h.decoded (h.exec_eq.trans (sendFrame_of_busy hl he hb p))

theorem badArg (h : SendsPayload i w d ty n p s) (hs : maySend s) (ha : sendArgsOk d ty n = false) :
    commandGives i w s (faulting .badArg w s) :=
  commandGives_of_exec h.decoded (h.exec_eq.trans (sendFrame_of_badArgs hs ha p))

/-- What a SEND of a payload of its type's own size does, whatever the type (R205, R206). -/
theorem rules_of_fixedSize (h : SendsPayload i w d ty n p s) (hsize : fixedSize ty = some n) (hn : n ≤ 60) :
    (maySend s → (d = 0xC8 ∨ d = 0xEA) → sendGives i w s (buildFrame d ty p)) ∧
    (live s → s.en = false → commandGives i w s (faulting .notEnabled w s)) ∧
    (live s → s.en = true → s.txBusy = true → commandGives i w s (faulting .txOverlap w s)) ∧
    (maySend s → d ≠ 0xC8 → d ≠ 0xEA → commandGives i w s (faulting .badArg w s)) := by
  have ha := sendArgsOk_of_fixedSize (d := d) hsize hn
  refine ⟨fun hs hd => h.gives hs (ha.trans (isSync_iff.2 hd)), h.notEnabled, h.txOverlap, fun hs hfc hradio => ?_⟩
  refine h.badArg hs (ha.trans (Bool.eq_false_iff.2 fun hd => ?_))
  exact (isSync_iff.1 hd).elim hfc hradio

end SendsPayload

theorem sendBattery_sendsPayload (d : Byte) (s : State) :
    SendsPayload (.sendBattery d) (0#16 ++ d ++ 0x08#8) d Config.typeBattery 8 (batteryPayload s) s := by
  rw [cmdWord_of_oneArg]
  exact ⟨decodeOfEncodeIsTheInstruction (.sendBattery d) rfl, rfl, by simp⟩

theorem sendGps_sendsPayload (d : Byte) (s : State) :
    SendsPayload (.sendGps d) (0#16 ++ d ++ 0x09#8) d Config.typeGps 15 (gpsPayload s) s := by
  rw [cmdWord_of_oneArg]
  exact ⟨decodeOfEncodeIsTheInstruction (.sendGps d) rfl, rfl, by simp⟩

theorem sendRaw_sendsPayload (d ty c : Byte) (s : State) :
    SendsPayload (.sendRaw d ty c.toNat) (c ++ ty ++ d ++ 0x0A#8) d ty c.toNat (s.txp.toList.take c.toNat) s := by
  refine ⟨decodeCmd_sendRaw d ty c, ?_, take_txp_length_le s _⟩
  rw [exec, execSendRaw, BitVec.ofNat_toNat, BitVec.setWidth_eq]
  rfl

/-- The frame SEND_RAW builds counts its payload by the command's C byte (R200, R207). -/
theorem buildFrame_of_txp (d ty : Byte) {c : Byte} (hc : c.toNat ≤ 60) (s : State) :
    buildFrame d ty (s.txp.toList.take c.toNat) =
      [d, c + 2] ++ (ty :: s.txp.toList.take c.toNat) ++ [crc8 (ty :: s.txp.toList.take c.toNat)] := by
  have hlen : (s.txp.toList.take c.toNat).length = c.toNat := by simpa using hc
  have hcount : BitVec.ofNat 8 (c.toNat + 2) = c + 2 := by
    rw [BitVec.ofNat_add, BitVec.ofNat_toNat, BitVec.setWidth_eq]
    rfl
  rw [buildFrame, hlen, hcount]
  rfl

/-- A SEND is the shared operation, whatever its operands. -/
theorem exec_eq_sendFrame {i : Instr} (h : isSend i) (s : State) :
    ∃ w d ty n p, exec i s = sendFrame w d ty n p s := by
  rcases h with ⟨d, rfl⟩ | ⟨d, rfl⟩ | ⟨d, ty, n, rfl⟩ <;> exact ⟨_, _, _, _, _, rfl⟩

/-- While a send is in flight another SEND only faults (R212, R264). -/
theorem faulting_of_send_of_busy {i : Instr} {s t : State} (hi : isSend i) (hl : live s) (hb : s.txBusy = true)
    (h : exec i s = .next t) : t = faulting .txOverlap t.faultInfo s ∨ t = faulting .notEnabled t.faultInfo s := by
  obtain ⟨w, d, ty, n, p, hx⟩ := exec_eq_sendFrame hi s
  cases he : s.en with
  | true =>
    obtain rfl := next_inj ((sendFrame_of_busy hl he hb p).symm.trans (hx.symm.trans h))
    exact .inl rfl
  | false =>
    obtain rfl := next_inj ((sendFrame_of_disabled hl he p).symm.trans (hx.symm.trans h))
    exact .inr rfl

/-- Settles O45: the battery payload has its type's own size, and a word with a second argument is the encoding of no
command. -/
theorem sendBatteryBuildsItsFrame : Obligations.SendBatteryBuildsItsFrame := by
  intro s d w body
  obtain ⟨hgives, hdisabled, hbusy, hbadArg⟩ := (sendBattery_sendsPayload d s).rules_of_fixedSize rfl (by decide)
  obtain ⟨hillegal, -⟩ := nonZeroFieldsFault
  exact ⟨hgives, hdisabled, hbusy, hbadArg, fun u hl hop harg => hillegal u s hl (.inr ⟨by rw [hop]; decide, harg⟩)⟩

/-- Settles O46: the GPS payload has its type's own size, and a word with a second argument is the encoding of no
command. -/
theorem sendGpsBuildsItsFrame : Obligations.SendGpsBuildsItsFrame := by
  refine ⟨gpsAltEncoderOffset_cases, ?_⟩
  intro s d w alt body
  obtain ⟨hgives, hdisabled, hbusy, hbadArg⟩ := (sendGps_sendsPayload d s).rules_of_fixedSize rfl (by decide)
  obtain ⟨hillegal, -⟩ := nonZeroFieldsFault
  exact ⟨hgives, hdisabled, hbusy, hbadArg, fun u hl hop harg => hillegal u s hl (.inr ⟨by rw [hop]; decide, harg⟩)⟩

/-- Settles O47: the argument check is the conditions on destination, length and type together. -/
theorem sendRawBuildsItsFrame : Obligations.SendRawBuildsItsFrame := by
  intro s d ty c w sizeOk body
  have h := sendRaw_sendsPayload d ty c s
  refine ⟨fun hs hd hc hsize => ?_, h.notEnabled, h.txOverlap, fun hs hbad => ?_⟩
  · have hgives := h.gives hs (sendArgsOk_iff.2 ⟨hd, hc, hsize⟩)
    rwa [buildFrame_of_txp d ty hc] at hgives
  · refine h.badArg hs (Bool.eq_false_iff.2 fun ha => ?_)
    obtain ⟨hd, hc, hsize⟩ := sendArgsOk_iff.1 ha
    rcases hbad with ⟨hfc, hradio⟩ | hlong | hsize'
    · exact hd.elim hfc hradio
    · exact absurd hc (Nat.not_le.2 hlong)
    · exact hsize' hsize

/-- SEND_RAW of a payload of 22 bytes in `txp` starts a channels frame of it (R207). -/
theorem exec_sendRaw_channels {s : State} {d : Byte} {p : Vector Byte 22} (hs : maySend s) (hd : d = 0xC8 ∨ d = 0xEA)
    (hp : s.txp.toList.take 22 = p.toList) :
    exec (.sendRaw d 0x16 22) s = .next (startTx (wireFrame d 0x16 p.toList) s) := by
  obtain ⟨hl, he, hb⟩ := hs
  rw [← hp]
  exact sendFrame_of_maySend hl he hb _ (sendArgsOk_iff.2 ⟨hd, by decide, by decide⟩) _

/-- Settles O51: the built frame is a valid frame of the packed channels, whose dispatch unpacks them. -/
theorem builtChannelsFrameDecodesToItsChannels : Obligations.BuiltChannelsFrameDecodesToItsChannels := by
  intro s d v hs hr hrx hd htxp
  have hframe : (wireFrame d 0x16 (pack16 v).toList).length ≤ 64 :=
    ((buildFrame_length d 0x16 _).trans (by rw [Vector.length_toList])).le.trans (by decide : 22 + 4 ≤ 64)
  obtain ⟨b, hb⟩ := receive_wireFrame (s := startTx (wireFrame d 0x16 (pack16 v).toList) s) (type := 0x16)
    (payload := (pack16 v).toList) hr hrx hd (by simp)
  rw [dispatch_channels, unpack22_pack16] at hb
  have hreceive := (congrArg (receive · _) (builtFrame_startTx hframe s)).trans hb
  exact ⟨_, _, exec_sendRaw_channels hs hd htxp, hreceive, rfl, rfl, rfl, rfl⟩

/-- Settles O52: a transmission starts only while none is in flight, and a SEND meets the overlap check before its own. -/
theorem frameInFlightIsFixed : Obligations.FrameInFlightIsFixed := by
  intro i s t hb h
  have hframe : t.txBuf = s.txBuf ∧ t.txLen = s.txLen := by
    cases txProgress_of_effect (exec_effect h) with
    | kept hbuf hlen _ _ | took _ hbuf hlen _ _ => exact ⟨hbuf, hlen⟩
    | started _ _ _ hidle _ _ _ => exact absurd (hb.symm.trans hidle) nofun
  obtain ⟨hbuf, hlen⟩ := hframe
  exact ⟨hbuf, hlen, fun hl hi => faulting_of_send_of_busy hi hl hb h⟩

end Sys2Proof.Claims
end

section
/-! PROOFS. The SINK (43_tx_builder.md R208 to R210): what a sink word does to a send in flight, and the words that are no
steps. -/

namespace Sys2Proof.Machine

variable {s : State} {n : Nat}

/-- Outside its duties the SINK has no step (R210). -/
theorem whileSending_of_not_sending (h : s.faulted = true ∨ s.txBusy = false) (k : Result) :
    whileSending s k = .refused .sinkNoStep := by
  rcases h with h | h <;> simp [whileSending, h]

theorem endSend_of_more (h : s.txPos ≠ s.txLen) : endSend s = s := if_neg h

theorem endSend_of_all (h : s.txPos = s.txLen) : endSend s = { s with txBusy := false, txResult := .ok } := if_pos h

/-- SINK_TAKE of no more than remains takes the bytes offered (R208). -/
theorem exec_sinkTake_of_sending (hl : s.faulted = false) (hb : s.txBusy = true)
    (hn : s.txPos.toNat + n ≤ s.txLen.toNat) :
    exec (.sinkTake n) s =
      .next (endSend { s with txPos := BitVec.ofNat 7 (s.txPos.toNat + n), wire := s.wire ++ offered n s }) := by
  rw [exec, execSinkTake, whileSending_of_sending hl hb, if_pos hn]

/-- SINK_TAKE of more than remains is no step (R210). -/
theorem exec_sinkTake_of_overrun (hl : s.faulted = false) (hb : s.txBusy = true)
    (hn : s.txLen.toNat < s.txPos.toNat + n) : exec (.sinkTake n) s = .refused .sinkOverrun := by
  rw [exec, execSinkTake, whileSending_of_sending hl hb, if_neg (Nat.not_le.2 hn)]

/-- The position after a take is the end of the frame exactly when the count is (R208). -/
theorem ofNat_eq_txLen_iff (hn : n ≤ s.txLen.toNat) : BitVec.ofNat 7 n = s.txLen ↔ n = s.txLen.toNat := by
  rw [← BitVec.toNat_inj, BitVec.toNat_ofNat, Nat.mod_eq_of_lt (hn.trans_lt s.txLen.isLt)]

/-- A sink word above SINK_FAIL's is no instruction (R96). -/
theorem decodeSinkw_of_illegal {w : BitVec 8} (h : 0x81 ≤ w.toNat) : decodeSinkw w = .error (.notASinkStep w) := by
  have hf : w.getLsbD 7 ≠ false := by
    rw [getLsbD_of_digit (b := true) (by rw [Bool.toNat_true]; omega)]
    nofun
  have hfail : w ≠ 0x80 := by rintro rfl; exact absurd h (by decide)
  rw [decodeSinkw, if_neg hf, if_neg hfail]

end Sys2Proof.Machine

namespace Sys2Proof.Claims

open Sys2Proof.Machine Sys2Proof.Safety

/-- Settles O48: the bytes taken are those offered, and the send ends when the position meets the length. -/
theorem sinkTakeTakesTheNextBytes : Obligations.SinkTakeTakesTheNextBytes := by
  intro s n hl hb t
  refine ⟨fun hmore => ?_, fun hall => ?_⟩
  · have hne : t.txPos ≠ t.txLen := fun h => hmore.ne ((ofNat_eq_txLen_iff hmore.le).1 h)
    rw [exec_sinkTake_of_sending hl hb hmore.le]
    exact congrArg _ (endSend_of_more hne)
  · have heq : t.txPos = t.txLen := (ofNat_eq_txLen_iff hall.le).2 hall
    rw [exec_sinkTake_of_sending hl hb hall.le]
    exact congrArg _ (endSend_of_all heq)

/-- Settles O49: the failure is the SINK's own step while a send is in flight. -/
theorem sinkFailEndsTheSend : Obligations.SinkFailEndsTheSend :=
  ⟨rfl, fun _ hl hb => whileSending_of_sending hl hb _⟩

/-- Settles O50: no send in flight, more than remains, and a word that decodes to no instruction. -/
theorem sinkWordsOutsideItsDutiesAreNoSteps : Obligations.SinkWordsOutsideItsDutiesAreNoSteps := by
  refine fun s n => ⟨fun h => ⟨whileSending_of_not_sending h _, whileSending_of_not_sending h _⟩,
    exec_sinkTake_of_overrun, fun w rest hw hi => ?_⟩
  have hd : decode (.sinkw w) = .error (.notASinkStep w) := decodeSinkw_of_illegal hw
  simp only [step, takeInput_cons s _ rest hi, Input.codeWord, hd, rejectWord]

end Sys2Proof.Claims
end

section
/-! PROOFS. The enable and the shadows (44_store_api.md): INIT (R240), LATCH_CH (R241) and LATCH_LINK (R242) as instructions
and as words written to CMD. -/

namespace Sys2Proof.Machine

variable {s : State}

theorem exec_init_of_disabled (hl : s.faulted = false) (he : s.en = false) : exec .init s = .next { s with en := true } := by
  rw [exec, execInit, unlessFrozen_of_live hl, he]
  rfl

theorem exec_init_of_enabled (hl : s.faulted = false) (he : s.en = true) :
    exec .init s = .next (faultEntry .doubleInit 0x00000001 s) := by
  rw [exec, execInit, unlessFrozen_of_live hl, if_pos he]
  rfl

theorem exec_latchCh_of_live (hl : s.faulted = false) : exec .latchCh s = .next { s with shCh := s.stCh } :=
  unlessFrozen_of_live hl _

theorem exec_latchLink_of_live (hl : s.faulted = false) : exec .latchLink s = .next { s with shLink := s.stLink } :=
  unlessFrozen_of_live hl _

end Sys2Proof.Machine

namespace Sys2Proof.Claims

open Sys2Proof.Machine Sys2Proof.Safety

/-- No instruction clears `en`: the one that writes it sets it (R23). -/
theorem en_of_exec {i : Instr} {s t : State} (h : exec i s = .next t) (he : s.en = true) : t.en = true := by
  by_cases hkept : t.en = s.en
  · exact hkept.trans he
  · obtain ⟨-, hset⟩ := (writesOwn_of_effect (exec_effect h)).en hkept
    exact hset

/-- An argument to a command of the store API, which takes none, is an illegal command (R93). -/
theorem illegalCommand_of_storeApi_argument {op : Byte} (hop : op = 0x01 ∨ op = 0x06 ∨ op = 0x07) {s : State}
    (hl : live s) (w : Word32) (hw : w.extractLsb' 0 8 = op) (harg : w.extractLsb' 8 24 ≠ 0) : illegalCommand w s := by
  obtain ⟨hillegal, -⟩ := nonZeroFieldsFault
  have hnoArgs : (w.extractLsb' 0 8).toNat ∈ [0x01, 0x02, 0x04, 0x05, 0x06, 0x07] := by
    rw [hw]
    rcases hop with rfl | rfl | rfl <;> decide
  exact hillegal w s hl (.inl ⟨hnoArgs, harg⟩)

/-- Settles O53: `en` has no writer that clears it, and the command's two outcomes are the two values of `en`. -/
theorem initStartsTheBlockOnce : Obligations.InitStartsTheBlockOnce := by
  have hd : decode (.cmd 0x00000001) = .ok .init := decodeOfEncodeIsTheInstruction .init rfl
  refine ⟨fun _ _ _ => en_of_exec, fun s hl => ⟨fun he => ?_, fun he => ?_, ?_⟩⟩
  · exact commandGives_of_exec hd (exec_init_of_disabled hl he)
  · exact commandGives_of_exec hd (exec_init_of_enabled hl he)
  · exact illegalCommand_of_storeApi_argument (.inl rfl) hl

/-- Settles O54: LATCH_CH checks nothing but the freeze, and a word with an argument is the encoding of no command. -/
theorem latchChCopiesTheSnapshot : Obligations.LatchChCopiesTheSnapshot := by
  intro s hl
  have hd : decode (.cmd 0x00000006) = .ok .latchCh := decodeOfEncodeIsTheInstruction .latchCh rfl
  exact ⟨commandGives_of_exec hd (exec_latchCh_of_live hl), illegalCommand_of_storeApi_argument (.inr (.inl rfl)) hl⟩

/-- Settles O55: LATCH_LINK checks nothing but the freeze, and a word with an argument is the encoding of no command. -/
theorem latchLinkCopiesTheSnapshot : Obligations.LatchLinkCopiesTheSnapshot := by
  intro s hl
  have hd : decode (.cmd 0x00000007) = .ok .latchLink := decodeOfEncodeIsTheInstruction .latchLink rfl
  exact ⟨commandGives_of_exec hd (exec_latchLink_of_live hl), illegalCommand_of_storeApi_argument (.inr (.inr rfl)) hl⟩

end Sys2Proof.Claims
end

section
/-! PROOFS. Faults (60_exceptions.md): an operation that faults writes the fault record alone (R261), and a frozen block keeps
its record and its elements until reset (R262, R263). -/

namespace Sys2Proof.Machine

variable {s t : State} {i : Instr}

/-! ### Fault entry -/

/-- An instruction that writes `faulted` enters a fault and does nothing else (R261). -/
theorem faulted_of_effect (e : Effect s i t) :
    t.faulted = s.faulted ∨ ∃ code info, code ≠ .none ∧ t = faultEntry code info s := by
  induction e with
  | fault _ code info _ hc => exact .inr ⟨code, info, hc, rfl⟩
  | rxSeek d => rw [rxSeek_frame]; exact .inl rfl
  | rxReadLen d => rw [rxReadLen_frame]; exact .inl rfl
  | rxBody d => rw [rxComplete_frame]; exact .inl rfl
  | sinkTake => rw [endSend_frame]; exact .inl rfl
  | wrData => rw [writeReg_frame]; exact .inl rfl
  | wrCmd _ _ _ _ _ _ ih => exact ih
  | _ => exact .inl rfl

theorem faultEntry_of_effect (e : Effect s i t) (hl : s.faulted = false) (hf : t.faulted = true) :
    ∃ code info, code ≠ .none ∧ t = faultEntry code info s :=
  (faulted_of_effect e).resolve_left fun hkept => absurd (hf.symm.trans (hkept.trans hl)) nofun

/-- A step that faults consumes its word and enters the fault, whether the word was an instruction or not (R261). -/
theorem faultEntry_of_step (h : step s = .next t) (hl : s.faulted = false) (hf : t.faulted = true) :
    ∃ code info, code ≠ .none ∧ t = faultEntry code info { s with inputs := s.inputs.tail } := by
  rcases step_cases h with ⟨-, rfl⟩ | ⟨inp, rest, hi, hcase⟩
  · exact absurd (hf.symm.trans hl) nofun
  · rw [hi, List.tail_cons]
    rcases hcase with ⟨-, rfl⟩ | ⟨c, i, -, -, e⟩ | rfl | ⟨-, hentry⟩
    · exact absurd hf nofun
    · exact faultEntry_of_effect e hl hf
    · exact absurd (hf.symm.trans hl) nofun
    · exact hentry

/-! ### The frozen block -/

/-- On a frozen block an instruction writes no element: only a RD still returns its word (R263). -/
theorem effect_of_frozen (e : Effect s i t) (hf : s.faulted = true) : ∃ v, t = { s with rdData := v } := by
  cases e with
  | same => exact ⟨s.rdData, rfl⟩
  | rd _ _ v => exact ⟨some v, rfl⟩
  | _ => exact absurd (hf.symm.trans ‹s.faulted = false›) nofun

/-- A step of a frozen block, unless it resets, consumes a word and may return one, and does nothing else (R262, R263). -/
theorem step_of_frozen (h : step s = .next t) (hf : s.faulted = true) (hreset : ∀ rest, s.inputs ≠ .reset :: rest) :
    ∃ waiting v, t = { s with inputs := waiting, rdData := v } := by
  rcases step_cases h with ⟨-, rfl⟩ | ⟨inp, rest, hi, hcase⟩
  · exact ⟨t.inputs, t.rdData, rfl⟩
  · rcases hcase with ⟨rfl, -⟩ | ⟨c, i, -, -, e⟩ | rfl | ⟨hl, -⟩
    · exact absurd hi (hreset rest)
    · obtain ⟨v, rfl⟩ := effect_of_frozen e hf
      exact ⟨rest, v, rfl⟩
    · exact ⟨rest, s.rdData, rfl⟩
    · exact absurd (hf.symm.trans hl) nofun

theorem rxChecked_of_frozen (hf : s.faulted = true) (w : BitVec 10) (k : Result) : rxChecked w s k = .next s :=
  unlessFrozen_of_frozen hf _

theorem readFault_of_frozen (hf : s.faulted = true) (off : Offset) :
    readFault off s = .next { s with rdData := some 0x00000000 } :=
  if_pos hf

/-- RD of an offset that is not readable is the read that cannot be served (R62 to R64). -/
theorem exec_rd_of_not_readable {off : Offset} (h : ¬ Claims.readable off) (ignored : Word32) (s : State) :
    exec (.rd off ignored) s = readFault off s := by
  rw [exec, execRd]
  cases hr : regAt off with
  | none => rfl
  | some r =>
    have hwo : regAccess r = .wo := by_contra fun ha => h (readable_iff.mpr ⟨r, hr, ha⟩)
    simp only [hwo]

end Sys2Proof.Machine

namespace Sys2Proof.Claims

open Sys2Proof.Machine Sys2Proof.Safety

/-- Settles O56: what sets `faulted` is a fault entry, on the state the operation began with. -/
theorem faultsArePrecise : Obligations.FaultsArePrecise := by
  refine ⟨fun i s t hl h hf => ?_, fun s t hl h hf => ?_⟩
  · obtain ⟨code, info, hc, rfl⟩ := faultEntry_of_effect (exec_effect h) hl hf
    exact ⟨rfl, hc⟩
  · obtain ⟨code, info, hc, rfl⟩ := faultEntry_of_step h hl hf
    exact ⟨rfl, hc⟩

/-- Settles O57: on a frozen block every effect but a RD's word is ruled out, and WR and the RX words stop at the freeze. -/
theorem frozenBlockKeepsEverything : Obligations.FrozenBlockKeepsEverything := by
  refine fun s hf => ⟨fun t h hreset => ?_, fun off v => unlessFrozen_of_frozen hf _, fun i w hw => ?_,
    fun off ignored hread => ?_⟩
  · obtain ⟨waiting, v, rfl⟩ := step_of_frozen h hf hreset
    rfl
  · obtain ⟨k, hk⟩ := exec_eq_rxChecked hw s
    rw [hk, rxChecked_of_frozen hf]
  · rw [exec_rd_of_not_readable hread, readFault_of_frozen hf]

end Sys2Proof.Claims
end

section
/-! PROOFS. Reset (70_reset_and_hazards.md R300): the step that resets, the word each register shows after it, and the
invariants the reset state meets. -/

namespace Sys2Proof.Machine

variable {s : State} {rest : List Input}

/-- A reset step consumes the reset input and resets the block, whatever the block was before (R300). -/
theorem step_of_reset (hi : s.inputs = .reset :: rest) : step s = .next (resetBlock { s with inputs := rest }) := by
  rw [step, takeInput_cons s .reset rest hi]
  rfl

/-- The reset value of an array, element by element (R300). -/
theorem replicate_zero_getElem_fin {n w : Nat} (k : Fin n) : (Vector.replicate n (0 : BitVec w))[k] = 0 :=
  Vector.getElem_replicate k.isLt

/-- An array register shows 0 when its element is 0 (R66). -/
theorem setWidth_of_eq_zero {w : Nat} {x : BitVec w} (hx : x = 0) : x.setWidth 32 = 0 := by
  rw [hx]
  exact BitVec.setWidth_zero 32 w

/-- What lies outside the block shows in no register (R43): a reset block reads as the state after reset. -/
theorem readReg_resetBlock (r : Reg) (s : State) : readReg r (resetBlock s) = readReg r State.reset := by
  cases r <;> rfl

/-- After reset every register of the map shows 0: an array its zeroed element, any other a closed word (R43, R300). -/
theorem readReg_reset (r : Reg) : readReg r State.reset = 0 := by
  cases r with
  | chShadow i | linkShadow i | codecCh i | codecPk i | txPayload i | txBuf i =>
    exact setWidth_of_eq_zero (replicate_zero_getElem_fin i)
  | status | rxDebug | txInfo => decide
  | _ => rfl

end Sys2Proof.Machine

namespace Sys2Proof.Claims

open Sys2Proof.Machine Sys2Proof.Safety

/-- Settles O11: a readable offset holds a register of the map, and after reset every register shows 0. -/
theorem registersReadZeroAfterReset : Obligations.RegistersReadZeroAfterReset := by
  intro s t rest off ignored hi hs hoff
  obtain rfl := next_inj ((step_of_reset hi).symm.trans hs)
  obtain ⟨r, hr, ha⟩ := readable_iff.mp hoff
  have hrd := execRd_of_regAt hr ha ignored (resetBlock { s with inputs := rest })
  rwa [readReg_resetBlock, readReg_reset] at hrd

/-- Settles O10: the step answers `resetBlock`, whose arrays hold zeros and whose other elements are `State.reset`'s. -/
theorem resetRestoresEveryElement : Obligations.ResetRestoresEveryElement := by
  intro s rest hi
  have zeros {n w : Nat} (k : Fin n) := replicate_zero_getElem_fin (w := w) k
  exact ⟨_, step_of_reset hi, rfl, rfl, rfl, rfl, rfl, zeros, zeros, rfl, rfl, rfl, rfl, rfl,
    fun k => ⟨zeros k, zeros k⟩, fun k => ⟨zeros k, zeros k⟩, rfl, rfl, rfl, rfl, rfl, rfl, rfl, rfl, rfl, rfl, rfl, rfl,
    zeros, zeros, rfl, rfl, rfl, rfl, rfl, rfl, rfl⟩

/-- Settles O12: after reset the parts of the block agree, no frame is built, and none has begun to leave. -/
theorem resetMeetsTheInvariant : Obligations.ResetMeetsTheInvariant :=
  ⟨coherent_reset, .inl rfl, wireOk_of_txPos_zero rfl⟩

end Sys2Proof.Claims
end
